-- ==== Sys2Proof/Word.lean ====
section
/-! DEFINITION. The words of the link: bytes, 16-bit words and frames of words (10_frame_and_record_layouts.md). -/

namespace Sys2Proof

/-- A byte of an SPI transaction (R157). -/
abbrev Byte := BitVec 8

/-- A 16-bit word of a frame, a slot or a group set (R170, R26, R22). -/
abbrev Word := BitVec 16

/-- A run of words carried in one transaction: a request frame or a reply frame (R158). -/
abbrev Frame := List Word

end Sys2Proof
end

