-- ==== Sys2Proof/Config.lean ====
section
/-! DEFINITION. What the part fixes (the capacities of 00_scope.md) and the one free value of the model. -/

namespace Sys2Proof.Config

/-- The top of site time, where it saturates (R128, R129). -/
@[simp] abbrev topOfTime : Nat := 4294967295

/-- Seconds in a day. -/
@[simp] abbrev daySeconds : Nat := 86400

/-- REFCLK periods in a second (R129). -/
@[simp] abbrev periodsPerSecond : Nat := 32768

/-- Frames that the request FIFO, and likewise the reply queue, can hold (R158). -/
@[simp] abbrev linkFrames : Nat := 16

/-- Entries of the holdings table (R64). -/
@[simp] abbrev holdingEntries : Nat := 8192

/-- Entries of the waiter table (R106). -/
@[simp] abbrev waiterEntries : Nat := 256

/-- Pools (R5). -/
@[simp] abbrev pools : Nat := 64

/-- Entries of the feature table (R13). -/
@[simp] abbrev featureEntries : Nat := 512

/-- Codes of the project list (R7). -/
@[simp] abbrev projectEntries : Nat := 128

/-- Allotments (R9). -/
@[simp] abbrev allotmentEntries : Nat := 256

/-- Entries of the user directory (R22). -/
@[simp] abbrev userEntries : Nat := 4096

/-- Entries of the host directory (R25). -/
@[simp] abbrev hostEntries : Nat := 1024

/-- Records of the drained list (R20). -/
@[simp] abbrev drainedRecords : Nat := 512

/-- Slots of the term store (R26). -/
@[simp] abbrev termSlots : Nat := 2048

/-- Slots of the longest well-formed chain (R27). -/
@[simp] abbrev chainSlots : Nat := 16

/-- The greatest figure of references a holding can carry (R64, R77). -/
@[simp] abbrev fullReferences : Nat := 65535

/-- A FREE VALUE (assumption 9): which of the deadlines of one second is handled next, where R139 leaves either
order open. It is applied to the counter `State.choices` and reduced modulo the number of those deadlines. -/
opaque tieChoice : Nat → Nat

end Sys2Proof.Config
end

