-- ==== Sys2Proof/Syntax.lean ====
section
/-! DEFINITION. The commands of the part: one constructor per row of spec/opcode_table.json, in the table's order.
A request kind carries no operand of its own: its fields are the words of the frame that the Request Decoder takes. -/

namespace Sys2Proof

/-- How long the host clocks after the command byte of a transaction, before SELn rises: a number of whole bytes, and of
bits of one more (R157). -/
structure Clocked where
  bytes : Nat
  cut : Fin 8
  deriving DecidableEq, Repr

/-- What the part receives on SDI after the command byte of a transaction: the whole bytes, and how many bits of one
more before SELn rises (R157). -/
structure Sent where
  bytes : List Byte
  cut : Fin 8
  deriving DecidableEq, Repr

/-- How long the host clocks as it sends. -/
def Sent.clocked (sdi : Sent) : Clocked := ⟨sdi.bytes.length, sdi.cut⟩

/-- The steps of the part, each whole and indivisible (95_what_each_step_holds.md). -/
inductive Instr where
  /-- WRITE_FRAME (R159, R160): what is received on SDI after the command byte 01h. -/
  | writeFrame (sdi : Sent)
  /-- READ_FRAME (R161, R162): how long the host clocks after the command byte 02h. -/
  | readFrame (clocked : Clocked)
  /-- READ_STATUS (R163): how long the host clocks after the command byte 03h. -/
  | readStatus (clocked : Clocked)
  /-- BAD_COMMAND_BYTE (R164): the command byte, absent when SELn rose before it was complete, and what is received
  after it; where it is absent, the bits received are its own. -/
  | badCommandByte (command : Option Byte) (sdi : Sent)
  /-- DEVICE_RESET (R169): RESETn is asserted. -/
  | deviceReset
  /-- RESET_RELEASE (R169): RESETn is released. -/
  | resetRelease
  /-- ADMEN_CHANGE (R168): the level the management controller now drives. -/
  | admenChange (level : Bool)
  /-- SITE_TIME_ADVANCE (R129): the divider turns over. -/
  | siteTimeAdvance
  /-- LEASE_EXPIRY (R87) of the holding in an entry. -/
  | leaseExpiry (entry : Nat)
  /-- LINGER_END (R86) of the holding in an entry. -/
  | lingerEnd (entry : Nat)
  /-- BORROW_END (R100) of the holding in an entry. -/
  | borrowEnd (entry : Nat)
  /-- WAIT_DEADLINE (R120) of the waiter in an entry. -/
  | waitDeadline (entry : Nat)
  /-- FEATURE_END_INSTANT (R19) of the feature with a code. -/
  | featureEndInstant (code : Nat)
  /-- BAD_REQUEST (R167). -/
  | badRequest
  /-- CHECKOUT (R74). -/
  | checkout
  /-- RENEW (R83). -/
  | renew
  /-- RELEASE (R84). -/
  | release
  /-- BORROW (R95). -/
  | borrow
  /-- RETURN (R99). -/
  | giveBack
  /-- CANCEL_WAIT (R122). -/
  | cancelWait
  /-- QUERY_HOLDING (R92). -/
  | queryHolding
  /-- QUERY_POOL (R62). -/
  | queryPool
  /-- NEXT_NOTICE (R148). -/
  | nextNotice
  /-- SET_TIME (R139). -/
  | setTime
  /-- OPEN_SERVICE (R2). -/
  | openService
  /-- CLOSE_SERVICE (R3). -/
  | closeService
  /-- DEFINE_POOL (R6). -/
  | definePool
  /-- DEFINE_PROJECT (R7). -/
  | defineProject
  /-- REMOVE_PROJECT (R8). -/
  | removeProject
  /-- DEFINE_ALLOTMENT (R10). -/
  | defineAllotment
  /-- REMOVE_ALLOTMENT (R12). -/
  | removeAllotment
  /-- DEFINE_FEATURE (R14). -/
  | defineFeature
  /-- RETIRE_FEATURE (R18). -/
  | retireFeature
  /-- QUERY_FEATURE (R21). -/
  | queryFeature
  /-- WRITE_TERMS (R42). -/
  | writeTerms
  /-- DEFINE_USER (R23). -/
  | defineUser
  /-- DEFINE_HOST (R25). -/
  | defineHost
  /-- SET_NOTICE_LEVELS (R146). -/
  | setNoticeLevels
  /-- CLEAR_HOLDINGS (R24). -/
  | clearHoldings
  /-- REFCLK_PERIOD (R129): one period of REFCLK. -/
  | refclkPeriod
  deriving DecidableEq, Repr

end Sys2Proof
end

