-- ==== Sys2Proof/Machine/State.lean ====
section
/-! DEFINITION. The state of the part, all of it, as plain data, and the state after device reset. -/

namespace Sys2Proof.Machine

/-- Numbered contents: pairs with rising numbers. Where every number has contents (entries, slots, pools), a number
not listed holds the reset contents, and no pair lists those. -/
abbrev Table (α : Type) := List (Nat × α)

/-- The service state (R1). -/
inductive Service where
  | closed
  | opened
  deriving DecidableEq, Repr

/-- The time-set state (R128). -/
inductive TimeState where
  | unset
  | set
  deriving DecidableEq, Repr

/-- The states of a feature entry that holds a record; a FREE entry holds none and is not listed (R13). -/
inductive FeatureState where
  | active
  | retiring
  deriving DecidableEq, Repr

/-- A feature's sharing kind (R67). -/
inductive Sharing where
  | separate
  | user
  | station
  deriving DecidableEq, Repr

/-- The record of an ACTIVE or RETIRING feature (R13). -/
structure Feature where
  state : FeatureState
  pool : Nat
  weight : Nat
  sharing : Sharing
  startDay : Nat
  /-- The last licensed day; none for a perpetual feature. -/
  endDay : Option Nat
  lease : Nat
  linger : Nat
  borrowMax : Nat
  /-- The chain start, where the feature has a chain. -/
  chain : Option Nat
  /-- Whether the end instant is lodged with the Time Unit (R136). -/
  endLodged : Bool
  deriving DecidableEq, Repr

/-- A pool: its definition (R5), its account (R44), its over state (R47), the event time of its OVER-unreported
mark (R48), and its queue of waiter entries, head first (R109). -/
structure Pool where
  capacity : Nat
  borrowCap : Nat
  used : Nat
  borrowed : Nat
  lingering : Nat
  isOver : Bool
  overMark : Option Nat
  queue : List Nat
  deriving DecidableEq, Repr

/-- A pool after device reset (R5, R44, R47, R48, R109). -/
def Pool.initial : Pool :=
  { capacity := 0, borrowCap := 0, used := 0, borrowed := 0, lingering := 0, isOver := false, overMark := none,
    queue := [] }

/-- A project's share of one pool (R9). -/
structure Allotment where
  project : Nat
  pool : Nat
  reserve : Nat
  cap : Option Nat
  used : Nat
  deriving DecidableEq, Repr

/-- A user's standing (R22). -/
inductive Standing where
  | enabled
  | barred
  deriving DecidableEq, Repr

/-- An entry of the user directory (R22); group `g` is bit `g` of the group set (10.2). -/
structure User where
  groups : Word
  standing : Standing
  highest : Nat
  deriving DecidableEq, Repr

/-- How a term's value joins the verdict (R35). -/
inductive Combine where
  | set
  | and
  | or
  | xor
  deriving DecidableEq, Repr

/-- The eight predicates (section 2.3). -/
inductive Predicate where
  | group
  | hostClass
  | project
  | seats
  | hours
  | days
  | userCap
  | hosts
  deriving DecidableEq, Repr

/-- A slot of the term store (R26). -/
inductive Slot where
  | term (combine : Combine) (negate last : Bool) (predicate : Predicate) (operand : Word)
  | extension (operand : Word)
  deriving DecidableEq, Repr

/-- A slot after device reset (R26). -/
def Slot.initial : Slot := .term .set false false .group 0#16

/-- The states of a holding entry (R64). -/
inductive HoldingState where
  | free
  | live
  | borrowed
  | lingering
  | lapsed
  deriving DecidableEq, Repr

/-- The end reasons of a LAPSED holding: LEASE, END, BORROW_END (R64). -/
inductive HoldingEnd where
  | lease
  | featureEnd
  | borrowEnd
  deriving DecidableEq, Repr

/-- An entry of the holdings table (R64). A field that its state does not have is 0, or none. -/
structure Holding where
  gen : Nat
  state : HoldingState
  feature : Nat
  pool : Nat
  user : Nat
  host : Nat
  project : Nat
  seats : Nat
  refs : Nat
  tokens : Nat
  deadline : Nat
  endReason : Option HoldingEnd
  eventTime : Nat
  deriving DecidableEq, Repr

/-- A FREE entry of a given generation, its record cleared (R73). -/
def Holding.freeEntry (gen : Nat) : Holding :=
  { gen := gen, state := .free, feature := 0, pool := 0, user := 0, host := 0, project := 0, seats := 0, refs := 0,
    tokens := 0, deadline := 0, endReason := none, eventTime := 0 }

/-- A holding entry after device reset (R64). -/
def Holding.initial : Holding := Holding.freeEntry 1

/-- The states of a waiter entry (R106). -/
inductive WaiterState where
  | free
  | waiting
  | granted
  | ended
  deriving DecidableEq, Repr

/-- The end reasons of an ENDED waiter (R106). -/
inductive WaiterEnd where
  | timeout
  | expired
  | retired
  deriving DecidableEq, Repr

/-- An entry of the waiter table (R106). A field that its state does not have is 0, false or none. -/
structure Waiter where
  gen : Nat
  state : WaiterState
  feature : Nat
  user : Nat
  host : Nat
  project : Nat
  seats : Nat
  cls : Nat
  deadline : Nat
  handleIndex : Nat
  handleGen : Nat
  merged : Bool
  endReason : Option WaiterEnd
  eventTime : Nat
  deriving DecidableEq, Repr

/-- A FREE waiter entry of a given generation (R106). -/
def Waiter.freeEntry (gen : Nat) : Waiter :=
  { gen := gen, state := .free, feature := 0, user := 0, host := 0, project := 0, seats := 0, cls := 0, deadline := 0,
    handleIndex := 0, handleGen := 0, merged := false, endReason := none, eventTime := 0 }

/-- A waiter entry after device reset (R106). -/
def Waiter.initial : Waiter := Waiter.freeEntry 1

/-- A drained-feature record (R20). -/
structure Drained where
  feature : Nat
  eventTime : Nat
  deriving DecidableEq, Repr

/-- The kinds of deadline (R131). -/
inductive DeadlineKind where
  | leaseExpiry
  | lingerEnd
  | borrowEnd
  | waitDeadline
  | featureEnd
  deriving DecidableEq, Repr

/-- A deadline of the Time Unit: its second, its kind, and its record, which is a holding entry, a waiter entry or a
feature code by the kind (R131). -/
structure Deadline where
  second : Nat
  kind : DeadlineKind
  record : Nat
  deriving DecidableEq, Repr

/-- The level and the enable of one notice kind (R144). -/
structure NoticeSetting where
  level : Nat
  enable : Bool
  deriving DecidableEq, Repr

/-- The five notice kinds, in tie order (R143). -/
inductive NoticeKind where
  | grant
  | waitEnd
  | lapse
  | poolOver
  | drained
  deriving DecidableEq, Repr

/-- The settings of the five notice kinds (R144). -/
structure NoticeSettings where
  grant : NoticeSetting
  waitEnd : NoticeSetting
  lapse : NoticeSetting
  poolOver : NoticeSetting
  drained : NoticeSetting
  deriving DecidableEq, Repr

/-- The levels and enables after device reset (R144). -/
def NoticeSettings.initial : NoticeSettings :=
  { grant := ⟨2, true⟩, waitEnd := ⟨1, true⟩, lapse := ⟨1, true⟩, poolOver := ⟨3, true⟩, drained := ⟨0, true⟩ }

/-- The outcome codes of section 10.7. -/
inductive ReplyCode where
  | ok
  | granted
  | merged
  | reattached
  | queued
  | deniedCapacity
  | deniedRule
  | unknownFeature
  | retired
  | notYet
  | expired
  | barred
  | unknownProject
  | tableFull
  | queueFull
  | noHolding
  | ended
  | borrowed
  | notBorrowed
  | noBorrow
  | borrowCap
  | shared
  | noTicket
  | closed
  | notAdmin
  | inUse
  | badField
  | badRequest
  | timeUnset
  | timeBackward
  | chainForm
  | noNotice
  deriving DecidableEq, Repr

/-- What the owner of a request returns to the Request Decoder: the outcome, its detail and the body words (R167). -/
structure Answer where
  code : ReplyCode
  detail : Nat
  body : List Word
  deriving DecidableEq, Repr

/-- The fields that a Checkout carries, clamped, and that a waiter keeps (R74, R106). -/
structure Asking where
  feature : Nat
  user : Nat
  host : Nat
  project : Nat
  seats : Nat
  cls : Nat
  deriving DecidableEq, Repr

/-- The path of a Checkout or a waiter (R77): a new holding, a merge into a LIVE holding, or the reattach of a
LINGERING one. -/
inductive Path where
  | fresh
  | merge (entry : Nat)
  | reattach (entry : Nat)
  deriving DecidableEq, Repr

/-- What a scan does with the waiter it visits (R115 to R117). -/
inductive ScanVerdict where
  | passOver
  | stop
  /-- The scan stops for want of a holding entry (R116, R119). -/
  | starve
  /-- The waiter is granted on a path, at a cost, in a holding entry. -/
  | grant (f : Feature) (path : Path) (cost entry : Nat)
  deriving DecidableEq, Repr

/-- The whole state of the part, with the queue of the commands that wait. -/
structure State where
  /-- RESETn is asserted (R169). -/
  resetLow : Bool
  /-- The level of the ADMEN input (R168). -/
  admen : Bool
  /-- The whole bytes shifted out on SDO in the latest transaction (assumption 3). -/
  sdo : List Byte
  /-- The bits, most significant first, of the byte that SELn's rising cut short on SDO in the latest transaction; none
  where it ended with a whole byte (assumption 3). -/
  sdoBits : List Bool
  /-- The request FIFO, oldest first (R158). -/
  fifo : List Frame
  /-- The reply queue, oldest first (R158). -/
  replies : List Frame
  overrun : Bool
  framing : Bool
  /-- The service state (R1). -/
  service : Service
  /-- The ACTIVE and RETIRING features by code (R13). -/
  features : Table Feature
  /-- The pools by number (R5, R44, R47, R48, R109). -/
  pools : Table Pool
  /-- The project list (R7). -/
  projects : List Nat
  /-- The allotment table (R9). -/
  allotments : List Allotment
  /-- The user directory by code (R22). -/
  users : Table User
  /-- The host directory: classes by host code (R25). -/
  hosts : Table Nat
  /-- The drained list, in order of event time (R20). -/
  drained : List Drained
  /-- The term store by slot (R26). -/
  terms : Table Slot
  /-- The entry-starved mark (R119). -/
  starved : Bool
  /-- The holdings table by entry (R64). -/
  holdings : Table Holding
  /-- The waiter table by entry (R106). -/
  waiters : Table Waiter
  /-- Site time (R128). -/
  siteTime : Nat
  timeState : TimeState
  /-- The sub-second divider (R128). -/
  divider : Nat
  /-- Deadlines reached by an advance of site time and not yet taken (R132). -/
  reached : List Deadline
  /-- Deadlines reached by being lodged or lowered at or before site time, or passed by a forward step, and to be
  handled within the step in progress (R132, R139); empty between steps. -/
  atOnce : List Deadline
  /-- The levels and enables of the notice kinds (R144). -/
  notices : NoticeSettings
  /-- The MODEL's counter of order choices, to which `Config.tieChoice` is applied (assumption 9). -/
  choices : Nat
  /-- The commands that wait, first in first out. -/
  pending : List Instr
  deriving DecidableEq, Repr

/-- Why a step could stop with a fault: nothing in the spec stops the part, so there is no reason. No one raises a
fault, which is safe. -/
inductive Fault
  deriving DecidableEq, Repr

/-- Why a command could be refused. -/
inductive Refusal where
  /-- Raised by an arm of `exec` for a command that has no meaning yet, by name; safe. No arm raises it now. -/
  | notModelled (mnemonic : String)
  deriving DecidableEq, Repr

/-- The part after device reset, RESETn released (R169), each field at the value of the chapter of its block; the
level of ADMEN, SDO and the choice counter are the model's (assumptions 1, 3, 9). -/
def State.reset : State :=
  { resetLow := false, admen := false, sdo := [], sdoBits := [], fifo := [], replies := [], overrun := false,
    framing := false, service := .closed, features := [], pools := [], projects := [], allotments := [], users := [],
    hosts := [], drained := [], terms := [], starved := false, holdings := [], waiters := [], siteTime := 0,
    timeState := .unset, divider := 0, reached := [], atOnce := [], notices := NoticeSettings.initial, choices := 0,
    pending := [] }

end Sys2Proof.Machine
end

