-- ==== Sys2Proof/Machine/Ops.lean ====
section
/-! DEFINITION. The named operations on which every meaning rests: tables of numbered contents, the entries of State,
the choice of a first element, generations, day and hour arithmetic, and the lodging and withdrawing of deadlines. -/

namespace Sys2Proof.Machine

/-! ### Tables -/

/-- What a table lists under a number. -/
def tableFind {α : Type} : Table α → Nat → Option α
  | [], _ => none
  | (j, v) :: t, k => if j = k then some v else tableFind t k

/-- Lists contents under a number, in place of any that stand there, keeping the numbers rising. -/
def tableInsert {α : Type} : Table α → Nat → α → Table α
  | [], k, v => [(k, v)]
  | (j, w) :: t, k, v =>
    if k < j then (k, v) :: (j, w) :: t
    else if k = j then (k, v) :: t
    else (j, w) :: tableInsert t k v

/-- Lists nothing under a number. -/
def tableErase {α : Type} (t : Table α) (k : Nat) : Table α :=
  t.filter (fun e => e.1 != k)

/-- The contents under a number of a table whose unlisted numbers hold `d`. -/
def tableGet {α : Type} (d : α) (t : Table α) (k : Nat) : α :=
  (tableFind t k).getD d

/-- Writes contents under a number of a table whose unlisted numbers hold `d`: writing `d` removes the pair. -/
def tablePut {α : Type} [DecidableEq α] (d : α) (t : Table α) (k : Nat) (v : α) : Table α :=
  if v = d then tableErase t k else tableInsert t k v

/-- Changes the contents under every listed number of a table whose unlisted numbers hold `d`. -/
def tableMap {α : Type} [DecidableEq α] (d : α) (t : Table α) (g : α → α) : Table α :=
  (t.map (fun e => (e.1, g e.2))).filter (fun e => e.2 != d)

/-- The numbers of a table rise. -/
abbrev TableRising {α : Type} (t : Table α) : Prop :=
  t.Pairwise (fun a b => a.1 < b.1)

/-- The canonical form of a table whose unlisted numbers hold `d`: rising numbers, and `d` not listed. -/
abbrev TableCanonical {α : Type} [DecidableEq α] (d : α) (t : Table α) : Prop :=
  TableRising t ∧ ∀ e ∈ t, e.2 ≠ d

/-! ### Choosing -/

/-- The first element of a list in an order: an element before which no other comes, and among equals the one that
stands first in the list. -/
def firstBy {α : Type} (before : α → α → Bool) : List α → Option α
  | [] => none
  | x :: xs =>
    match firstBy before xs with
    | none => some x
    | some y => if before y x then some y else some x

/-- The lowest of the `n` numbers from `i` up that is good. -/
def lowestFrom (good : Nat → Bool) : Nat → Nat → Option Nat
  | 0, _ => none
  | n + 1, i => if good i then some i else lowestFrom good n (i + 1)

/-- The order by time and then by index (R147, R69, R71). -/
def timeThenIndex (a b : Nat × Nat) : Bool :=
  a.1 < b.1 || (a.1 == b.1 && a.2 < b.2)

/-! ### Entries of State -/

/-- A holding entry. -/
def State.holding (s : State) (i : Nat) : Holding := tableGet Holding.initial s.holdings i

/-- A waiter entry. -/
def State.waiter (s : State) (j : Nat) : Waiter := tableGet Waiter.initial s.waiters j

/-- A pool. -/
def State.pool (s : State) (p : Nat) : Pool := tableGet Pool.initial s.pools p

/-- The ACTIVE or RETIRING feature of a code; none when the code is FREE (R13). -/
def State.feature (s : State) (code : Nat) : Option Feature := tableFind s.features code

/-- A user's directory entry (R22). -/
def State.user (s : State) (code : Nat) : Option User := tableFind s.users code

/-- A host's class: 0 for a host without an entry (R25). -/
def State.hostClass (s : State) (code : Nat) : Nat := tableGet 0 s.hosts code

/-- A slot of the term store (R26). -/
def State.slot (s : State) (k : Nat) : Slot := tableGet Slot.initial s.terms k

/-- Writes a holding entry; its deadline is not touched. -/
def State.setHolding (s : State) (i : Nat) (h : Holding) : State :=
  { s with holdings := tablePut Holding.initial s.holdings i h }

/-- Writes a waiter entry; its deadline is not touched. -/
def State.setWaiter (s : State) (j : Nat) (w : Waiter) : State :=
  { s with waiters := tablePut Waiter.initial s.waiters j w }

/-- Writes a pool. -/
def State.setPool (s : State) (p : Nat) (q : Pool) : State :=
  { s with pools := tablePut Pool.initial s.pools p q }

/-- Writes a feature record. -/
def State.setFeature (s : State) (code : Nat) (f : Feature) : State :=
  { s with features := tableInsert s.features code f }

/-- A user is BARRED when the directory says so; a user without an entry is ENABLED (R22). -/
def State.isBarred (s : State) (code : Nat) : Bool :=
  match s.user code with
  | some u => u.standing == .barred
  | none => false

/-- A user's highest class: 0 for a user without an entry (R22, R74). -/
def State.highestClass (s : State) (code : Nat) : Nat :=
  match s.user code with
  | some u => u.highest
  | none => 0

/-- The record that stands for a feature code that no entry holds (assumption 15); no reachable state reads it. -/
def absentFeature : Feature :=
  { state := .retiring, pool := 0, weight := 0, sharing := .separate, startDay := 0, endDay := none, lease := 0,
    linger := 0, borrowMax := 0, chain := none, endLodged := false }

/-- The feature record of a holding or waiter. A counted holding and a WAITING waiter always have one (R20, R95). -/
def State.featureOf (s : State) (code : Nat) : Feature := (s.feature code).getD absentFeature

/-! ### Generations and states -/

/-- The generation after a generation: 1 after 255 (R66, R108). -/
def nextGen (g : Nat) : Nat := if 255 ≤ g then 1 else g + 1

/-- The counted states: LIVE, BORROWED and LINGERING (R65). -/
def HoldingState.counted : HoldingState → Bool
  | .live => true
  | .borrowed => true
  | .lingering => true
  | .free => false
  | .lapsed => false

/-- The kind of deadline that a holding's state has (R65, R131). -/
def HoldingState.deadlineKind : HoldingState → Option DeadlineKind
  | .live => some .leaseExpiry
  | .lingering => some .lingerEnd
  | .borrowed => some .borrowEnd
  | .free => none
  | .lapsed => none

/-! ### Site time (R130, R13, R134) -/

/-- The day number of a site time (R130). -/
def dayOf (t : Nat) : Nat := t / Config.daySeconds

/-- The weekday of a site time, 0 for Monday (R130). -/
def weekdayOf (t : Nat) : Nat := dayOf t % 7

/-- The hour of a site time (R130). -/
def hourOf (t : Nat) : Nat := t % Config.daySeconds / 3600

/-- A feature's start instant (R13). -/
def Feature.startInstant (f : Feature) : Nat := f.startDay * Config.daySeconds

/-- A feature's end instant; none for a perpetual feature (R13). -/
def Feature.endInstant (f : Feature) : Option Nat := f.endDay.map (fun d => (d + 1) * Config.daySeconds)

/-- Site time has reached the feature's end instant (R75, R115). -/
def Feature.ended (f : Feature) (t : Nat) : Bool :=
  match f.endInstant with
  | some e => e ≤ t
  | none => false

/-- The clamp on every deadline: the least of the natural value, the feature's end instant and the top of site time
(R134). -/
def Feature.clamp (f : Feature) (natural : Nat) : Nat :=
  match f.endInstant with
  | some e => min (min natural e) Config.topOfTime
  | none => min natural Config.topOfTime

/-! ### Deadlines (R131, R132) -/

/-- The deadline is one of the holding in an entry. -/
def Deadline.ofHolding (i : Nat) (d : Deadline) : Bool :=
  d.record == i && (d.kind == .leaseExpiry || d.kind == .lingerEnd || d.kind == .borrowEnd)

/-- The deadline is the wait deadline of the waiter in an entry. -/
def Deadline.ofWaiter (j : Nat) (d : Deadline) : Bool :=
  d.record == j && d.kind == .waitDeadline

/-- The deadline is the end instant of the feature with a code. -/
def Deadline.ofFeature (code : Nat) (d : Deadline) : Bool :=
  d.record == code && d.kind == .featureEnd

/-- Withdraws the deadlines that a test names from those reached and not yet handled. -/
def State.withdraw (s : State) (named : Deadline → Bool) : State :=
  { s with reached := s.reached.filter (fun d => !named d), atOnce := s.atOnce.filter (fun d => !named d) }

/-- Lodges a deadline that its record carries: one at or before site time is reached at once (R132). -/
def State.lodge (s : State) (d : Deadline) : State :=
  if d.second ≤ s.siteTime then { s with atOnce := s.atOnce ++ [d] } else s

/-- Writes a holding entry whose state or deadline changes: the old deadline is withdrawn, and in a counted state
the new one is lodged (R65). -/
def State.placeHolding (s : State) (i : Nat) (h : Holding) : State :=
  let s := (s.withdraw (Deadline.ofHolding i)).setHolding i h
  match h.state.deadlineKind with
  | some k => s.lodge ⟨h.deadline, k, i⟩
  | none => s

/-- Writes a waiter entry whose state or deadline changes: the old deadline is withdrawn, and in WAITING the new one
is lodged (R107). -/
def State.placeWaiter (s : State) (j : Nat) (w : Waiter) : State :=
  let s := (s.withdraw (Deadline.ofWaiter j)).setWaiter j w
  if w.state = .waiting then s.lodge ⟨w.deadline, .waitDeadline, j⟩ else s

/-- Writes a feature record and lodges its end instant, where it has one, in place of the old one (R136). -/
def State.placeFeature (s : State) (code : Nat) (f : Feature) : State :=
  let s := s.withdraw (Deadline.ofFeature code)
  match f.endInstant with
  | some e => (s.setFeature code { f with endLodged := true }).lodge ⟨e, .featureEnd, code⟩
  | none => s.setFeature code { f with endLodged := false }

/-- A FREE code: the entry is FREE and its end-instant deadline is withdrawn (R20). -/
def State.removeFeature (s : State) (code : Nat) : State :=
  let s := s.withdraw (Deadline.ofFeature code)
  { s with features := tableErase s.features code }

/-- The deadline that a holding entry carries (R65). -/
def holdingDeadline (e : Nat × Holding) : Option Deadline :=
  e.2.state.deadlineKind.map (fun k => ⟨e.2.deadline, k, e.1⟩)

/-- The deadline that a waiter entry carries (R107). -/
def waiterDeadline (e : Nat × Waiter) : Option Deadline :=
  if e.2.state = .waiting then some ⟨e.2.deadline, .waitDeadline, e.1⟩ else none

/-- The end instant that a feature has lodged (R136). -/
def featureDeadline (e : Nat × Feature) : Option Deadline :=
  if e.2.endLodged then e.2.endInstant.map (fun t => ⟨t, .featureEnd, e.1⟩) else none

/-- Every deadline that the records carry: the Time Unit's lodged deadlines (R131) and, among them, those reached and
not yet handled. -/
def State.deadlines (s : State) : List Deadline :=
  s.holdings.filterMap holdingDeadline ++ s.waiters.filterMap waiterDeadline ++ s.features.filterMap featureDeadline

end Sys2Proof.Machine
end

