-- ==== Sys2Proof/Machine/Operands.lean ====
section
/-! DEFINITION. Bytes, words, frames and slots as they travel: fields of request frames, replies, and the layout of
term slots (10_frame_and_record_layouts.md). -/

namespace Sys2Proof.Machine

/-! ### Bytes and words (R157, R170) -/

/-- The high byte of a word: bits 15..8. -/
def hiByte (w : Word) : Byte := w.extractLsb' 8 8

/-- The low byte of a word: bits 7..0. -/
def loByte (w : Word) : Byte := w.extractLsb' 0 8

/-- The first bits of a byte, in the order in which they are sent: most significant first (R157). -/
def leadingBits (b : Byte) (n : Nat) : List Bool := (List.range n).map (fun k => b.getMsbD k)

/-- A word from its high byte and its low byte. -/
def joinBytes (hi lo : Byte) : Word := hi ++ lo

/-- The bytes of a frame in the order in which they are sent: of each word the high byte first (R157). -/
def bytesOf : Frame → List Byte
  | [] => []
  | w :: ws => hiByte w :: loByte w :: bytesOf ws

/-- The words of which all bytes have been received; a byte without its partner is no word (R160). -/
def wordsOf : List Byte → Frame
  | hi :: lo :: rest => joinBytes hi lo :: wordsOf rest
  | _ => []

/-- A word that holds a value of 0..65535. -/
def wordOf (n : Nat) : Word := BitVec.ofNat 16 n

/-- The two words of a 32-bit value, high word first (R170). -/
def words32 (n : Nat) : List Word := [wordOf (n / 65536), wordOf n]

/-- A flag as a word: 1 for yes or present (section 10.2). -/
def flagWord (b : Bool) : Word := if b then 1#16 else 0#16

/-! ### Request frames -/

/-- The value of a word of a frame, counted from 0; a word that a frame does not have reads as 0. -/
def field (f : Frame) (n : Nat) : Nat := (f.getD n 0#16).toNat

/-- The value of a 32-bit field, named by its first word (R170). -/
def field32 (f : Frame) (n : Nat) : Nat := field f n * 65536 + field f (n + 1)

/-- The kind code of a frame: the high byte of word 0 (R170). -/
def kindCode (f : Frame) : Nat := (hiByte (f.getD 0 0#16)).toNat

/-- The length of a frame in words that its word 0 gives: the low byte (R170). -/
def lengthOf (w : Word) : Nat := (loByte w).toNat

/-- A kind code of a client request (R167). -/
def clientKind (k : Nat) : Bool := 1 ≤ k && k ≤ 9

/-- A kind code of an admin request (R167). -/
def adminKind (k : Nat) : Bool := 0x20 ≤ k && k ≤ 0x2F

/-- The length is one that a kind takes (section 10.3, R173). -/
def lengthTaken (kind n : Nat) : Bool :=
  match kind with
  | 0x01 => n == 9
  | 0x02 => n == 4
  | 0x03 => n == 5
  | 0x04 => n == 5
  | 0x05 => n == 4
  | 0x06 => n == 4
  | 0x07 => n == 4
  | 0x08 => n == 4
  | 0x09 => n == 3
  | 0x20 => n == 4
  | 0x21 => n == 2
  | 0x22 => n == 2
  | 0x23 => n == 5
  | 0x24 => n == 3
  | 0x25 => n == 3
  | 0x26 => n == 7
  | 0x27 => n == 4
  | 0x28 => n == 14
  | 0x29 => n == 3
  | 0x2A => n == 3
  | 0x2B => 5 ≤ n && n ≤ 39 && n % 2 == 1
  | 0x2C => n == 6
  | 0x2D => n == 5
  | 0x2E => n == 7
  | 0x2F => n == 2
  | _ => false

/-- The lowest-numbered word that holds a failing field (R171), from the words with their failures in order. -/
def firstBadWord (checks : List (Nat × Bool)) : Option Nat := (checks.find? (fun c => c.2)).map (fun c => c.1)

/-! ### Replies (R166, R170) -/

/-- The outcome codes of section 10.7. -/
def ReplyCode.byte : ReplyCode → Byte
  | .ok => 0x00#8
  | .granted => 0x01#8
  | .merged => 0x02#8
  | .reattached => 0x03#8
  | .queued => 0x04#8
  | .deniedCapacity => 0x10#8
  | .deniedRule => 0x11#8
  | .unknownFeature => 0x12#8
  | .retired => 0x13#8
  | .notYet => 0x14#8
  | .expired => 0x15#8
  | .barred => 0x16#8
  | .unknownProject => 0x17#8
  | .tableFull => 0x18#8
  | .queueFull => 0x19#8
  | .noHolding => 0x20#8
  | .ended => 0x21#8
  | .borrowed => 0x22#8
  | .notBorrowed => 0x23#8
  | .noBorrow => 0x24#8
  | .borrowCap => 0x25#8
  | .shared => 0x26#8
  | .noTicket => 0x27#8
  | .closed => 0x30#8
  | .notAdmin => 0x31#8
  | .inUse => 0x32#8
  | .badField => 0x33#8
  | .badRequest => 0x34#8
  | .timeUnset => 0x35#8
  | .timeBackward => 0x36#8
  | .chainForm => 0x37#8
  | .noNotice => 0x38#8

/-- An answer without a body. -/
def plain (code : ReplyCode) (detail : Nat) : Answer := { code := code, detail := detail, body := [] }

/-- The BAD_FIELD answer that names a word (R171). -/
def badField (word : Nat) : Answer := plain .badField word

/-- The reply frame to a request frame: the kind and tag echoed, the length, the outcome, the detail and the body
(R166, R170). -/
def replyFrame (f : Frame) (a : Answer) : Frame :=
  joinBytes (hiByte (f.getD 0 0#16)) (BitVec.ofNat 8 (3 + a.body.length))
    :: f.getD 1 0#16
    :: joinBytes a.code.byte (BitVec.ofNat 8 a.detail)
    :: a.body

/-- The EMPTY frame (R162). -/
def emptyFrame : Frame := [0x0003#16, 0#16, 0#16]

/-! ### Coded values (section 10.2) -/

/-- The code of a holding state. -/
def HoldingState.code : HoldingState → Nat
  | .free => 0
  | .live => 1
  | .borrowed => 2
  | .lingering => 3
  | .lapsed => 4

/-- The code of a feature state. -/
def FeatureState.code : FeatureState → Nat
  | .active => 1
  | .retiring => 2

/-- The code of a sharing kind. -/
def Sharing.code : Sharing → Nat
  | .separate => 0
  | .user => 1
  | .station => 2

/-- The sharing kind of a code; none for a code that is none of the three (R14). -/
def Sharing.ofCode : Nat → Option Sharing
  | 0 => some .separate
  | 1 => some .user
  | 2 => some .station
  | _ => none

/-- The code of a holding's end reason. -/
def holdingEndCode : Option HoldingEnd → Nat
  | none => 0
  | some .lease => 1
  | some .featureEnd => 2
  | some .borrowEnd => 3

/-- The code of a waiter's end reason. -/
def waiterEndCode : Option WaiterEnd → Nat
  | none => 0
  | some .timeout => 1
  | some .expired => 2
  | some .retired => 3

/-- The tie position of a notice kind, which is also its selector code (R143, section 10.2). -/
def NoticeKind.position : NoticeKind → Nat
  | .grant => 1
  | .waitEnd => 2
  | .lapse => 3
  | .poolOver => 4
  | .drained => 5

/-- The notice kind of a tie position. -/
def NoticeKind.ofPosition : Nat → Option NoticeKind
  | 1 => some .grant
  | 2 => some .waitEnd
  | 3 => some .lapse
  | 4 => some .poolOver
  | 5 => some .drained
  | _ => none

/-- The end day of word 7: 65535 means perpetual (section 10.3). -/
def endDayOfWord (n : Nat) : Option Nat := if n = 65535 then none else some n

/-- The end day as Query Feature reports it. -/
def endDayWord : Option Nat → Word
  | none => 0xFFFF#16
  | some d => wordOf d

/-- An optional value as a word: 0 where it is absent (R170). -/
def optWord : Option Nat → Word
  | none => 0#16
  | some n => wordOf n

/-! ### Term and extension slots (section 10.4, R173) -/

/-- The combine of a code; none for 4..7 (R173). -/
def Combine.ofCode : Nat → Option Combine
  | 0 => some .set
  | 1 => some .and
  | 2 => some .or
  | 3 => some .xor
  | _ => none

/-- The code of a combine. -/
def Combine.code : Combine → BitVec 3
  | .set => 0
  | .and => 1
  | .or => 2
  | .xor => 3

/-- The predicate of a code; none for 8..15 (R173). -/
def Predicate.ofCode : Nat → Option Predicate
  | 0 => some .group
  | 1 => some .hostClass
  | 2 => some .project
  | 3 => some .seats
  | 4 => some .hours
  | 5 => some .days
  | 6 => some .userCap
  | 7 => some .hosts
  | _ => none

/-- The code of a predicate. -/
def Predicate.code : Predicate → BitVec 4
  | .group => 0
  | .hostClass => 1
  | .project => 2
  | .seats => 3
  | .hours => 4
  | .days => 5
  | .userCap => 6
  | .hosts => 7

/-- The slot that two words of Write Terms carry; none where the kind, the combine or the predicate is bad. Bits
marked ignored are not read (R173). -/
def slotOfWords (w operand : Word) : Option Slot :=
  match (w.extractLsb' 14 2).toNat with
  | 1 =>
    match Combine.ofCode (w.extractLsb' 11 3).toNat, Predicate.ofCode (w.extractLsb' 0 4).toNat with
    | some c, some p => some (.term c (w.getLsbD 10) (w.getLsbD 9) p operand)
    | _, _ => none
  | 2 => some (.extension operand)
  | _ => none

/-- The two words of a slot, ignored bits 0 (section 10.4). -/
def wordsOfSlot : Slot → Word × Word
  | .term c negate last p operand =>
    ((1#2 ++ c.code ++ BitVec.ofBool negate ++ BitVec.ofBool last ++ 0#5 ++ p.code), operand)
  | .extension operand => (0x8000#16, operand)

/-- How many slots a Write Terms frame carries: its length less 3, halved (R173). -/
def slotCount (f : Frame) : Nat := (f.length - 3) / 2

/-- Slot `i` of the run that a Write Terms frame carries, from words 3 + 2i and 4 + 2i (R173). -/
def carriedSlot (f : Frame) (i : Nat) : Option Slot :=
  slotOfWords (f.getD (3 + 2 * i) 0#16) (f.getD (4 + 2 * i) 0#16)

end Sys2Proof.Machine
end

