-- ==== Sys2Proof/Machine/Chains.lean ====
section
/-! DEFINITION. Rule chains: the eight predicates, the verdict, the form check and the slots in use
(02_rule_chains.md). -/

namespace Sys2Proof.Machine

/-- What the Rule Evaluator collects for a Checkout (R28). -/
structure RuleInputs where
  groups : Word
  hostClass : Nat
  host : Nat
  project : Nat
  seats : Nat
  hour : Nat
  weekday : Nat
  userSeats : Nat
  deriving DecidableEq, Repr

/-- HOURS: the hour lies in the window from the high byte to the low byte, which may wrap past midnight (R31). -/
def hoursHold (operand : Word) (hour : Nat) : Bool :=
  let a := (hiByte operand).toNat
  let b := (loByte operand).toNat
  if a < b then a ≤ hour && hour < b
  else if b < a then a ≤ hour || hour < b
  else false

/-- The value of a predicate (R29 to R34); `hi` is the operand of the extension in the next slot, which HOSTS
reads. -/
def Predicate.holds (p : Predicate) (operand hi : Word) (inp : RuleInputs) : Bool :=
  match p with
  | .group => operand.toNat < 16 && inp.groups.getLsbD operand.toNat
  | .hostClass => inp.hostClass == operand.toNat
  | .project => inp.project == operand.toNat
  | .seats => inp.seats ≤ operand.toNat
  | .hours => hoursHold operand inp.hour
  | .days => operand.getLsbD inp.weekday
  | .userCap => inp.userSeats + inp.seats ≤ operand.toNat
  | .hosts => operand.toNat ≤ inp.host && inp.host ≤ hi.toNat

/-- A term's value joined to the verdict (R35). -/
def Combine.join : Combine → Bool → Bool → Bool
  | .set, _, v => v
  | .and, verdict, v => verdict && v
  | .or, verdict, v => verdict || v
  | .xor, verdict, v => verdict != v

/-- The operand of the extension that opens a run of slots, which the HOSTS term before it reads (R34). -/
def extensionOperand : List Slot → Word
  | .extension hi :: _ => hi
  | _ => 0#16

/-- Folds the slots from an offset on into a verdict and the deciding offset: the offset of the term after which the
verdict last took the value false, having been true before it or being that of the first term (R35, R36). -/
def foldChain (inp : RuleInputs) : List Slot → Nat → Bool → Nat → Bool × Nat
  | [], _, verdict, deciding => (verdict, deciding)
  | .extension _ :: rest, offset, verdict, deciding => foldChain inp rest (offset + 1) verdict deciding
  | .term c negate _ p operand :: rest, offset, verdict, deciding =>
    let value := p.holds operand (extensionOperand rest) inp != negate
    let after := c.join verdict value
    foldChain inp rest (offset + 1) after (if !after && (verdict || offset == 0) then offset else deciding)

/-- How many slots the run from a chain start holds, from an offset on: it ends at the first term marked last, and
takes in the extension of a last HOSTS term (R27). `ext` says that the slot is the extension of a HOSTS term, and
whether that term was marked last. No more than 16 slots are walked. -/
def chainExtent (s : State) (start : Nat) : Nat → Nat → Option Bool → Nat
  | 0, offset, _ => offset
  | n + 1, offset, some last =>
    if last then offset + 1 else chainExtent s start n (offset + 1) none
  | n + 1, offset, none =>
    match s.slot (start + offset) with
    | .extension _ => chainExtent s start n (offset + 1) none
    | .term _ _ last p _ =>
      if p = .hosts then chainExtent s start n (offset + 1) (some last)
      else if last then offset + 1
      else chainExtent s start n (offset + 1) none

/-- How many slots the chain at a start holds (R27). -/
def State.chainLength (s : State) (start : Nat) : Nat := chainExtent s start Config.chainSlots 0 none

/-- The slots of the chain at a start, in order of offset (R27). -/
def State.chainAt (s : State) (start : Nat) : List Slot :=
  (List.range (s.chainLength start)).map (fun k => s.slot (start + k))

/-- The final verdict of a feature's chain and its deciding offset (R35, R36); a feature without a chain admits every
Checkout. -/
def State.verdict (s : State) (f : Feature) (inp : RuleInputs) : Bool × Nat :=
  match f.chain with
  | none => (true, 0)
  | some start => foldChain inp (s.chainAt start) 0 false 0

/-- The operand lies in the range of its predicate (R39). -/
def Predicate.accepts (p : Predicate) (operand : Word) : Bool :=
  match p with
  | .group => operand.toNat ≤ 15
  | .hostClass => operand.toNat ≤ 15
  | .project => true
  | .seats => 1 ≤ operand.toNat && operand.toNat ≤ 16
  | .hours => (hiByte operand).toNat ≤ 24 && (loByte operand).toNat ≤ 24
  | .days => operand.toNat ≤ 127
  | .userCap => 1 ≤ operand.toNat && operand.toNat ≤ 255
  | .hosts => true

/-- Walks a chain for form from an offset on, with `n` slots of the sixteen left: the offset of the first bad slot, or
none when the walk ends well formed (R38, R39). `need` is none where a term is required; where an extension is
required it holds whether its HOSTS term was marked last, and that term's lo. -/
def formWalk (s : State) (start : Nat) : Nat → Nat → Option (Bool × Word) → Option Nat
  | 0, offset, _ => some offset
  | n + 1, offset, need =>
    if Config.termSlots ≤ start + offset then some offset
    else
      match need, s.slot (start + offset) with
      | none, .term c _ last p operand =>
        if offset = 0 ∧ c ≠ .set then some offset
        else if !p.accepts operand then some offset
        else if p = .hosts then formWalk s start n (offset + 1) (some (last, operand))
        else if last then none
        else formWalk s start n (offset + 1) none
      | none, .extension _ => some offset
      | some (last, lo), .extension hi =>
        if hi.toNat < lo.toNat then some offset
        else if last then none
        else formWalk s start n (offset + 1) none
      | some _, .term _ _ _ _ _ => some offset

/-- The form check of the chain at a start: the offset of its first bad slot, or none (R38). -/
def State.chainFault (s : State) (start : Nat) : Option Nat := formWalk s start Config.chainSlots 0 none

/-- A slot is in use while it lies in the chain of an ACTIVE or RETIRING feature (R41). -/
def State.slotInUse (s : State) (k : Nat) : Bool :=
  s.features.any (fun e =>
    match e.2.chain with
    | some start => start ≤ k && k < start + s.chainLength start
    | none => false)

end Sys2Proof.Machine
end

