-- ==== Sys2Proof/Machine/Accounts.lean ====
section
/-! DEFINITION. The Grant Engine's books: allotments, reserve sums, headroom, the over state, and the postings of
charges and refunds (03_token_accounting.md). -/

namespace Sys2Proof.Machine

/-- An allotment's key is its project and its pool (R9). -/
def Allotment.keyed (project pool : Nat) (a : Allotment) : Bool := a.project == project && a.pool == pool

/-- The allotment of a project in a pool (R9). -/
def State.allotment (s : State) (project pool : Nat) : Option Allotment :=
  s.allotments.find? (Allotment.keyed project pool)

/-- Changes the allotment of a key (R9). -/
def State.changeAllotment (s : State) (project pool : Nat) (g : Allotment → Allotment) : State :=
  { s with allotments := s.allotments.map (fun a => if a.keyed project pool then g a else a) }

/-- Posts a change to the used figure of the allotment of a key, where there is one (R57, R59). -/
def State.postUsed (s : State) (project pool : Nat) (g : Nat → Nat) : State :=
  s.changeAllotment project pool (fun a => { a with used := g a.used })

/-- The reserve sum of a pool (R46). -/
def State.reserveSum (s : State) (pool : Nat) : Nat :=
  ((s.allotments.filter (fun a => a.pool == pool)).map (fun a => a.reserve)).sum

/-- The shortfall of an allotment: its reserve less its used, or 0 (R52). -/
def Allotment.shortfall (a : Allotment) : Nat := a.reserve - a.used

/-- The shortfalls of every allotment in a pool whose project is not the one named (R52). -/
def State.othersShortfall (s : State) (pool project : Nat) : Nat :=
  ((s.allotments.filter (fun a => a.pool == pool && a.project != project)).map Allotment.shortfall).sum

/-- The headroom of a pool for a project, 0 where the result would be below 0 (R52). -/
def State.headroom (s : State) (pool project : Nat) : Nat :=
  (s.pool pool).capacity - ((s.pool pool).used + s.othersShortfall pool project)

/-- A pool with its over state recomputed against a reserve sum: over is yes while used exceeds the capacity or the
reserve sum exceeds it, and a change from no to yes marks the pool OVER-unreported with the event time, unless it is
marked already (R47, R48). -/
def Pool.recomputed (q : Pool) (reserves evt : Nat) : Pool :=
  let now := decide (q.capacity < q.used) || decide (q.capacity < reserves)
  { q with
    isOver := now
    overMark := if now && !q.isOver && q.overMark.isNone then some evt else q.overMark }

/-- Recomputes a pool's over state (R47). -/
def State.recomputeOver (s : State) (pool evt : Nat) : State :=
  s.setPool pool ((s.pool pool).recomputed (s.reserveSum pool) evt)

/-- Posts a charge of `c` tokens (R57). -/
def State.charge (s : State) (pool project c evt : Nat) : State :=
  let q := s.pool pool
  let s := s.setPool pool { q with used := q.used + c }
  let s := s.postUsed project pool (fun used => used + c)
  s.recomputeOver pool evt

/-- Takes tokens out of a pool's lingering figure (R57). -/
def State.unlinger (s : State) (pool tokens : Nat) : State :=
  let q := s.pool pool
  s.setPool pool { q with lingering := q.lingering - tokens }

/-- Posts the refund of a holding that leaves the counted states; `h` is the holding as it was in them (R59). -/
def State.refund (s : State) (h : Holding) (evt : Nat) : State :=
  let q := s.pool h.pool
  let s := s.setPool h.pool
    { q with
      used := q.used - h.tokens
      borrowed := if h.state = .borrowed then q.borrowed - h.tokens else q.borrowed
      lingering := if h.state = .lingering then q.lingering - h.tokens else q.lingering }
  let s := s.postUsed h.project h.pool (fun used => used - h.tokens)
  s.recomputeOver h.pool evt

/-- The queue of a pool holds a WAITING waiter whose class is equal to or above a class (R53). -/
def State.queueAhead (s : State) (pool cls : Nat) : Bool :=
  (s.pool pool).queue.any (fun j => (s.waiter j).state == .waiting && cls ≤ (s.waiter j).cls)

/-- The project's allotment in the pool has a cap that the cost would pass (R53). -/
def State.capExceeded (s : State) (pool project cost : Nat) : Bool :=
  match s.allotment project pool with
  | some a =>
    match a.cap with
    | some cap => cap < a.used + cost
    | none => false
  | none => false

/-- The charging condition: the cause detail of the first test that fails, or none when a cost above 0 may be charged
(R53). -/
def State.chargeCause (s : State) (pool project cls cost : Nat) : Option Nat :=
  if (s.pool pool).isOver then some 3
  else if s.queueAhead pool cls then some 4
  else if s.capExceeded pool project cost then some 2
  else if s.headroom pool project < cost then some 1
  else none

end Sys2Proof.Machine
end

