-- ==== Sys2Proof/Machine/Holdings.lean ====
section
/-! DEFINITION. The Holdings Store: handles, sharing keys, the choice of path, allocation and reclaim, and the making
and joining of holdings (04_holdings.md). -/

namespace Sys2Proof.Machine

/-- The holding that a handle names; none for a stale handle (R66). -/
def State.handleNames (s : State) (index gen : Nat) : Option Holding :=
  let h := s.holding index
  if h.gen = gen ∧ h.state ≠ .free then some h else none

/-- The seats that a user holds of a feature in the counted states (R33, R70). -/
def State.userSeats (s : State) (feature user : Nat) : Nat :=
  ((s.holdings.filter (fun e => e.2.state.counted && e.2.feature == feature && e.2.user == user)).map
    (fun e => e.2.seats)).sum

/-- How many holdings of a feature code stand in a state (R70). -/
def State.holdingCount (s : State) (feature : Nat) (st : HoldingState) : Nat :=
  (s.holdings.filter (fun e => e.2.state == st && e.2.feature == feature)).length

/-- The feature has a holding in a counted state. -/
def State.featureHeld (s : State) (feature : Nat) : Bool :=
  s.holdings.any (fun e => e.2.state.counted && e.2.feature == feature)

/-! ### Keys and paths (R67 to R69, R77) -/

/-- The holding stands in the key index under the merge key of the asking, for a feature of kind USER or STATION: it
is LIVE or LINGERING (R67, R68). -/
def sharesMergeKey (sharing : Sharing) (a : Asking) (h : Holding) : Bool :=
  (h.state == .live || h.state == .lingering) && h.feature == a.feature && h.user == a.user && h.project == a.project
    && (sharing == .user || h.host == a.host)

/-- The holding stands in the reattach set of the asking, for a feature of kind SEPARATE: it is LINGERING (R69). -/
def sharesReattachKey (a : Asking) (h : Holding) : Bool :=
  h.state == .lingering && h.feature == a.feature && h.user == a.user && h.host == a.host && h.project == a.project

/-- The entry that the key index maps the asking's merge key to (R68). -/
def State.sharedEntry (s : State) (sharing : Sharing) (a : Asking) : Option (Nat × Holding) :=
  s.holdings.find? (fun e => sharesMergeKey sharing a e.2)

/-- The first holding of the asking's reattach set: the one whose linger ends soonest, and of equal ones the lowest
entry (R69). -/
def State.reattachEntry (s : State) (a : Asking) : Option (Nat × Holding) :=
  firstBy (fun x y => timeThenIndex (x.2.deadline, x.1) (y.2.deadline, y.1))
    (s.holdings.filter (fun e => sharesReattachKey a e.2))

/-- The path of a Checkout or waiter, from the key index as it stands (R77, R114). -/
def State.choosePath (s : State) (sharing : Sharing) (a : Asking) : Path :=
  match sharing with
  | .separate =>
    match s.reattachEntry a with
    | some e => .reattach e.1
    | none => .fresh
  | _ =>
    match s.sharedEntry sharing a with
    | some e => if e.2.state = .live then .merge e.1 else .reattach e.1
    | none => .fresh

/-- The cost of a path for a number of seats at a weight: the whole for a new holding, else the seats above those the
holding has (R50, R51). -/
def State.pathCost (s : State) (weight seats : Nat) : Path → Nat
  | .fresh => weight * seats
  | .merge i => weight * (seats - (s.holding i).seats)
  | .reattach i => weight * (seats - (s.holding i).seats)

/-- The path is a merge into a holding whose references stand at 65535 (R77, R115). -/
def State.referencesFull (s : State) : Path → Bool
  | .merge i => Config.fullReferences ≤ (s.holding i).refs
  | _ => false

/-! ### Allocation (R71, R72) -/

/-- The lowest-numbered FREE entry (R71). -/
def State.freeEntry (s : State) : Option Nat :=
  lowestFrom (fun i => (s.holding i).state == .free) Config.holdingEntries 0

/-- The LAPSED entry with the earliest event time, and of equal ones the lowest-numbered (R71). -/
def State.lapsedEntry (s : State) : Option Nat :=
  (firstBy (fun x y => timeThenIndex (x.2.eventTime, x.1) (y.2.eventTime, y.1))
    (s.holdings.filter (fun e => e.2.state == .lapsed))).map (fun e => e.1)

/-- The entry that a new holding takes: the lowest FREE one, else the oldest LAPSED one; none when no entry is FREE
or LAPSED (R71). -/
def State.allocate (s : State) : Option Nat :=
  match s.freeEntry with
  | some i => some i
  | none => s.lapsedEntry

/-- The entry of a path: the allocated one for a new holding, its own for a merge or a reattach, which need no
allocation (R71). -/
def State.pathEntry (s : State) : Path → Option Nat
  | .fresh => s.allocate
  | .merge i => some i
  | .reattach i => some i

/-! ### Making and joining a holding (R79 to R81, R57) -/

/-- A lease expiry made at the present site time (R134, R135). -/
def State.leaseEnd (s : State) (f : Feature) : Nat := f.clamp (s.siteTime + f.lease)

/-- Makes a new holding in an entry; a LAPSED entry passes through FREE and its generation advances (R72, R79). -/
def State.makeHolding (s : State) (f : Feature) (a : Asking) (cost i evt : Nat) : State :=
  let old := s.holding i
  let s := s.placeHolding i
    { gen := if old.state = .lapsed then nextGen old.gen else old.gen
      state := .live
      feature := a.feature
      pool := f.pool
      user := a.user
      host := a.host
      project := a.project
      seats := a.seats
      refs := 1
      tokens := cost
      deadline := s.leaseEnd f
      endReason := none
      eventTime := 0 }
  s.charge f.pool a.project cost evt

/-- Posts the cost of a merge or reattach, if any (R55, R57). -/
def State.chargeJoin (s : State) (h : Holding) (cost evt : Nat) : State :=
  if cost = 0 then s else s.charge h.pool h.project cost evt

/-- Merges into a LIVE holding: one more reference, more seats where more are asked, and a fresh lease (R80). -/
def State.mergeHolding (s : State) (f : Feature) (a : Asking) (cost i evt : Nat) : State :=
  let h := s.holding i
  let s := s.placeHolding i
    { h with
      refs := h.refs + 1
      seats := max h.seats a.seats
      tokens := h.tokens + cost
      deadline := s.leaseEnd f }
  s.chargeJoin h cost evt

/-- Reattaches a LINGERING holding: its tokens leave the lingering figure, and it is LIVE with one reference and a
fresh lease (R81, R57). -/
def State.reattachHolding (s : State) (f : Feature) (a : Asking) (cost i evt : Nat) : State :=
  let h := s.holding i
  let s := s.placeHolding i
    { h with
      state := .live
      refs := 1
      seats := max h.seats a.seats
      tokens := h.tokens + cost
      deadline := s.leaseEnd f }
  (s.unlinger h.pool h.tokens).chargeJoin h cost evt

/-- Makes or joins the holding of a path (R79, R80, R81). -/
def State.grantPath (s : State) (f : Feature) (a : Asking) (path : Path) (cost i evt : Nat) : State :=
  match path with
  | .fresh => s.makeHolding f a cost i evt
  | .merge _ => s.mergeHolding f a cost i evt
  | .reattach _ => s.reattachHolding f a cost i evt

end Sys2Proof.Machine
end

