-- ==== Sys2Proof/Machine/Waiters.lean ====
section
/-! DEFINITION. The Wait Lists and the waiter scan: tickets, queues, queuing, ending and freeing waiters, and the
Grant Engine's scan of one pool (06_waiting_lists.md). -/

namespace Sys2Proof.Machine

/-- The waiter that a ticket names; none for a stale ticket (R108). -/
def State.ticketNames (s : State) (index gen : Nat) : Option Waiter :=
  let w := s.waiter index
  if w.gen = gen ∧ w.state ≠ .free then some w else none

/-- The fields that a waiter brings to a path, those of its Checkout (R114). -/
def Waiter.asking (w : Waiter) : Asking :=
  { feature := w.feature, user := w.user, host := w.host, project := w.project, seats := w.seats, cls := w.cls }

/-- The feature has a WAITING waiter. -/
def State.featureWaited (s : State) (feature : Nat) : Bool :=
  s.waiters.any (fun e => e.2.state == .waiting && e.2.feature == feature)

/-- How many WAITING waiters a feature has (R21). -/
def State.waitingCount (s : State) (feature : Nat) : Nat :=
  (s.waiters.filter (fun e => e.2.state == .waiting && e.2.feature == feature)).length

/-! ### Queues (R109, R110) -/

/-- Places a waiter after the last waiter of a queue whose class is equal to or above its own (R110). -/
def State.joined (s : State) (queue : List Nat) (j cls : Nat) : List Nat :=
  queue.takeWhile (fun k => cls ≤ (s.waiter k).cls) ++ j :: queue.dropWhile (fun k => cls ≤ (s.waiter k).cls)

/-- A waiter joins the queue of a pool (R110). -/
def State.joinQueue (s : State) (pool j cls : Nat) : State :=
  let q := s.pool pool
  s.setPool pool { q with queue := s.joined q.queue j cls }

/-- A waiter leaves the queue of a pool; those behind it close up (R110). -/
def State.leaveQueue (s : State) (pool j : Nat) : State :=
  let q := s.pool pool
  s.setPool pool { q with queue := q.queue.filter (fun k => k != j) }

/-- The lowest-numbered FREE entry of the waiter table (R111). -/
def State.freeWaiter (s : State) : Option Nat :=
  lowestFrom (fun j => (s.waiter j).state == .free) Config.waiterEntries 0

/-- Queues a Checkout in an entry (R111). -/
def State.queueCheckout (s : State) (f : Feature) (a : Asking) (wait j : Nat) : State :=
  let s := s.placeWaiter j
    { Waiter.freeEntry (s.waiter j).gen with
      state := .waiting
      feature := a.feature
      user := a.user
      host := a.host
      project := a.project
      seats := a.seats
      cls := a.cls
      deadline := f.clamp (s.siteTime + wait) }
  s.joinQueue f.pool j a.cls

/-- Ends a WAITING waiter with a reason and an event time: it leaves its queue and is ENDED (R120, R121). -/
def State.endWaiter (s : State) (j : Nat) (reason : WaiterEnd) (evt : Nat) : State :=
  let w := s.waiter j
  let s := s.leaveQueue (s.featureOf w.feature).pool j
  s.placeWaiter j { w with state := .ended, deadline := 0, endReason := some reason, eventTime := evt }

/-- A waiter's entry goes to FREE and its generation advances (R108). -/
def State.freeWaiterEntry (s : State) (j : Nat) : State :=
  s.placeWaiter j (Waiter.freeEntry (nextGen (s.waiter j).gen))

/-- Ends every WAITING waiter of a feature (R121). -/
def State.endFeatureWaiters (s : State) (code : Nat) (reason : WaiterEnd) (evt : Nat) : State :=
  s.waiters.foldl
    (fun acc e => if e.2.state = .waiting ∧ e.2.feature = code then acc.endWaiter e.1 reason evt else acc) s

/-! ### The scan (R113 to R118) -/

/-- What a scan does with a waiter: the tests of R114 in their order. A queue holds WAITING waiters only (R109), and
each has a feature record; anything else is passed over. -/
def State.visit (s : State) (j : Nat) : ScanVerdict :=
  let w := s.waiter j
  match s.feature w.feature with
  | none => .passOver
  | some f =>
    let path := s.choosePath f.sharing w.asking
    let cost := s.pathCost f.weight w.seats path
    if w.state ≠ .waiting then .passOver
    else if f.ended s.siteTime then .passOver
    else if s.referencesFull path then .passOver
    else if cost ≠ 0 ∧ s.capExceeded f.pool w.project cost then .passOver
    else if s.headroom f.pool w.project < cost then .stop
    else
      match s.pathEntry path with
      | none => .starve
      | some i => .grant f path cost i

/-- A merge or a reattach (R117). -/
def Path.joins : Path → Bool
  | .fresh => false
  | .merge _ => true
  | .reattach _ => true

/-- Grants a waiter: the holding is made or joined, the waiter leaves its queue and becomes GRANTED with the handle
of the holding (R117, R118). -/
def State.grantWaiter (s : State) (j : Nat) (f : Feature) (path : Path) (cost i evt : Nat) : State :=
  let w := s.waiter j
  let s := s.grantPath f w.asking path cost i evt
  let s := s.leaveQueue f.pool j
  s.placeWaiter j
    { w with
      state := .granted
      deadline := 0
      handleIndex := i
      handleGen := (s.holding i).gen
      merged := path.joins
      eventTime := evt }

/-- A scan down a queue, one waiter at a time (R114 to R117). -/
def scanWalk (evt : Nat) : List Nat → State → State
  | [], s => s
  | j :: rest, s =>
    match s.visit j with
    | .passOver => scanWalk evt rest s
    | .stop => s
    | .starve => { s with starved := true }
    | .grant f path cost i => scanWalk evt rest (s.grantWaiter j f path cost i evt)

/-- A scan that is asked for of a pool: it runs while the service is OPEN, the pool is not over and its queue holds a
waiter (R113). -/
def State.scan (s : State) (pool evt : Nat) : State :=
  if s.service = .opened ∧ (s.pool pool).isOver = false then scanWalk evt (s.pool pool).queue s else s

end Sys2Proof.Machine
end

