-- ==== Sys2Proof/Machine/Deadlines.lean ====
section
/-! DEFINITION. The endings of holdings and features, the resumption pass, and the handling of reached deadlines by
their owners (01_service_state_and_entitlement_tables.md, 04_holdings.md, 05_borrowed_holdings.md,
06_waiting_lists.md, 07_site_time_and_deadlines.md). -/

namespace Sys2Proof.Machine

/-! ### Draining (R20) -/

/-- The order of the drained list: event time, then feature code (R20, R147). -/
def Drained.notAfter (a b : Drained) : Bool := !timeThenIndex (b.eventTime, b.feature) (a.eventTime, a.feature)

/-- Adds a record behind those that come before it or are equal to it. -/
def insertDrained (d : Drained) (l : List Drained) : List Drained :=
  l.takeWhile (fun x => x.notAfter d) ++ d :: l.dropWhile (fun x => x.notAfter d)

/-- Adds a drained-feature record; where the list holds 512, the one with the earliest event time, and of equal ones
the lowest code, is removed first (R20). -/
def State.addDrained (s : State) (d : Drained) : State :=
  let kept := if Config.drainedRecords ≤ s.drained.length then s.drained.tail else s.drained
  { s with drained := insertDrained d kept }

/-- A feature drains: its entry is FREE, its deadline is withdrawn, and a drained-feature record is added (R20). -/
def State.drain (s : State) (code evt : Nat) : State :=
  (s.removeFeature code).addDrained { feature := code, eventTime := evt }

/-- The drain report: a RETIRING feature that has no counted holding left drains (R70, R20). -/
def State.drainReport (s : State) (code evt : Nat) : State :=
  match s.feature code with
  | some f => if f.state = .retiring ∧ s.featureHeld code = false then s.drain code evt else s
  | none => s

/-! ### How a holding lapses -/

/-- A holding lapses: LAPSED with its reason and the deadline as event time, its tokens refunded, the drain report
made, and a scan of its pool asked for (R87, R100). -/
def State.lapse (s : State) (i : Nat) (reason : HoldingEnd) (evt : Nat) : State :=
  let h := s.holding i
  let s := s.placeHolding i
    { h with state := .lapsed, refs := 0, deadline := 0, endReason := some reason, eventTime := evt }
  let s := s.refund h evt
  let s := s.drainReport h.feature evt
  s.scan h.pool evt

/-- The end reason of a lease expiry: END where the deadline equals the feature's end instant, else LEASE (R87). -/
def Feature.lapseReason (f : Feature) (second : Nat) : HoldingEnd :=
  if f.endInstant = some second then .featureEnd else .lease

/-- The lease expiry of a LIVE holding (R87). -/
def State.handleLeaseExpiry (s : State) (i second : Nat) : State :=
  let h := s.holding i
  if h.state = .live then
    s.lapse i ((s.featureOf h.feature).lapseReason second) second
  else s

/-! ### The order of the deadlines reached within a step (R132, R139) -/

/-- The deadlines to be handled at once that fall on the earliest second among them (R139). -/
def earliest (ds : List Deadline) : List Deadline :=
  ds.filter (fun d => ds.all (fun e => d.second ≤ e.second))

/-- Takes one of some deadlines that are to be handled at once; where there are several, the free value chooses (R139,
assumption 9). -/
def State.takeAmong (s : State) : List Deadline → Option (Deadline × State)
  | [] => none
  | [d] => some (d, { s with atOnce := s.atOnce.erase d })
  | d :: ds =>
    let chosen := (d :: ds).getD (Config.tieChoice s.choices % (ds.length + 1)) d
    some (chosen, { s with atOnce := s.atOnce.erase chosen, choices := s.choices + 1 })

/-- Takes deadlines and acts on them, one after another, until none is left to take, at most `n` of them. -/
def handleLoop (take : State → Option (Deadline × State)) (act : State → Deadline → State) : Nat → State → State
  | 0, s => s
  | n + 1, s =>
    match take s with
    | none => s
    | some (d, s) => handleLoop take act n (act s d)

/-- A bound on how many deadlines one step can handle: every one handled ends a counted holding, ends a WAITING
waiter, takes a feature's end instant out of the set, or finds nothing, and every grant between them turns a WAITING
waiter into at most one counted holding with one new deadline. -/
def State.settleBound (s : State) : Nat :=
  (s.holdings.filter (fun e => e.2.state.counted)).length
    + 3 * (s.waiters.filter (fun e => e.2.state == .waiting)).length
    + (s.features.filter (fun e => e.2.endLodged)).length
    + s.atOnce.length

/-! ### The pass over the pools (R2, R119) -/

/-- Takes a lease expiry that the scans of a pass have made, once no earlier deadline is to be handled; those that
waited before the pass wait on until it is over (R113, R139). -/
def State.takeMade (waiting : List Deadline) (s : State) : Option (Deadline × State) :=
  s.takeAmong ((earliest s.atOnce).filter (fun d => d.kind == .leaseExpiry && !waiting.contains d))

/-- The holdings that a scan of a pass has made or joined, and whose lease is reached at once, lapse: the scan is
complete, and the scan of a later pool can reach their entries (R119, R132, R142, assumption 22). -/
def State.settleMade (waiting : List Deadline) (s : State) : State :=
  handleLoop (State.takeMade waiting) (fun s d => s.handleLeaseExpiry d.record d.second) s.settleBound s

/-- The pools one after another in ascending number, each scanned and its grants settled before the next (R2, R119). -/
def State.scanAll (s : State) (evt : Nat) : State :=
  (List.range Config.pools).foldl (fun acc p => (acc.scan p evt).settleMade s.atOnce) s

/-- The pass of Open Service and the resumption pass: the entry-starved mark is cleared first (R119). -/
def State.pass (s : State) (evt : Nat) : State := { s with starved := false }.scanAll evt

/-- What follows when a holding entry has gone to FREE (R73, R119): with the mark set and the service OPEN the
resumption pass, which takes in the scan that the freeing change asked for; else that scan alone, if any. -/
def State.entryFreed (s : State) (asked : Option Nat) (evt : Nat) : State :=
  if s.starved ∧ s.service = .opened then s.pass evt
  else
    match asked with
    | some p => s.scan p evt
    | none => s

/-! ### How a holding entry goes to FREE -/

/-- A holding entry goes to FREE: its record is cleared and its generation advances (R73). -/
def State.clearEntry (s : State) (i : Nat) : State :=
  s.placeHolding i (Holding.freeEntry (nextGen (s.holding i).gen))

/-- A counted holding goes to FREE: its tokens are refunded, the drain report is made, the free entry is reported,
and a scan of its pool is asked for (R73, R85, R86, R99). -/
def State.endHolding (s : State) (i evt : Nat) : State :=
  let h := s.holding i
  let s := s.clearEntry i
  let s := s.refund h evt
  let s := s.drainReport h.feature evt
  s.entryFreed (some h.pool) evt

/-! ### Reached deadlines (R133) -/

/-- The end reason of a wait deadline: EXPIRED where it equals the feature's end instant, else TIMEOUT (R120). -/
def Feature.waitReason (f : Feature) (second : Nat) : WaiterEnd :=
  if f.endInstant = some second then .expired else .timeout

/-- The linger end of a LINGERING holding (R86). -/
def State.handleLingerEnd (s : State) (i second : Nat) : State :=
  if (s.holding i).state = .lingering then s.endHolding i second else s

/-- The borrow end of a BORROWED holding: reason BORROW_END, even at the feature's end instant (R100). -/
def State.handleBorrowEnd (s : State) (i second : Nat) : State :=
  if (s.holding i).state = .borrowed then s.lapse i .borrowEnd second else s

/-- The wait deadline of a WAITING waiter (R120). -/
def State.handleWaitDeadline (s : State) (j second : Nat) : State :=
  let w := s.waiter j
  if w.state = .waiting then
    s.endWaiter j ((s.featureOf w.feature).waitReason second) second
  else s

/-- The end instant of a feature: it leaves the set, and every WAITING waiter of the feature ends with reason EXPIRED
(R19, R136). -/
def State.handleFeatureEnd (s : State) (code second : Nat) : State :=
  match s.feature code with
  | some f => (s.setFeature code { f with endLodged := false }).endFeatureWaiters code .expired second
  | none => s

/-- The owner acts on a reached deadline (R133). A deadline whose record is not in the matching state finds nothing
to act on. -/
def State.handle (s : State) (d : Deadline) : State :=
  match d.kind with
  | .leaseExpiry => s.handleLeaseExpiry d.record d.second
  | .lingerEnd => s.handleLingerEnd d.record d.second
  | .borrowEnd => s.handleBorrowEnd d.record d.second
  | .waitDeadline => s.handleWaitDeadline d.record d.second
  | .featureEnd => s.handleFeatureEnd d.record d.second

/-- Takes the deadline to handle next: one of the earliest second (R139). -/
def State.takeDue (s : State) : Option (Deadline × State) := s.takeAmong (earliest s.atOnce)

/-- Handles every deadline reached within the step, until none is left (R132, R139). -/
def State.settle (s : State) : State := handleLoop State.takeDue State.handle s.settleBound s

end Sys2Proof.Machine
end

