-- ==== Sys2Proof/Machine/Decoder.lean ====
section
/-! DEFINITION. The Request Decoder: it takes the oldest frame, checks kind, length and admin right, passes the frame
to its owner and places one reply (09_the_request_link.md, section 9.7). -/

namespace Sys2Proof.Machine

/-- The request FIFO with the frames that are left in it. -/
def State.leaving (s : State) (rest : List Frame) : State := { s with fifo := rest }

/-- The frame that the Request Decoder may take, the oldest of the FIFO, and the state with it removed: there is one
when RESETn is released, the FIFO holds a frame and the reply queue has a free place (R166). -/
def State.takeFrame (s : State) : Option (Frame × State) :=
  if s.resetLow ∨ Config.linkFrames ≤ s.replies.length then none
  else
    match s.fifo with
    | [] => none
    | f :: rest => some (f, s.leaving rest)

/-- The decoder's three checks, and then the owner's work (R167). -/
def judge (owner : Frame → State → State × Answer) (f : Frame) (s : State) : State × Answer :=
  if !clientKind (kindCode f) && !adminKind (kindCode f) then (s, plain .badRequest 1)
  else if !lengthTaken (kindCode f) f.length then (s, plain .badRequest 2)
  else if adminKind (kindCode f) && !s.admen then (s, plain .notAdmin 0)
  else owner f s

/-- Places a reply behind those of the reply queue (R166). -/
def State.placeReply (s : State) (r : Frame) : State := { s with replies := s.replies ++ [r] }

/-- One event of the decoder: the frame is judged and its reply is placed (R166). -/
def answerFrame (owner : Frame → State → State × Answer) (f : Frame) (s : State) : State :=
  let served := judge owner f s
  served.1.placeReply (replyFrame f served.2)

/-- The taking of a frame of one kind (R166). Where the decoder can take no frame, or the oldest frame is of another
kind, no such event comes about and nothing changes (assumption 5). -/
def serveKind (kind : Nat) (owner : Frame → State → State × Answer) (s : State) : Host.Outcome State Fault Refusal :=
  match s.takeFrame with
  | some (f, taken) => if kindCode f = kind then .next (answerFrame owner f taken) else .next s
  | none => .next s

/-- The decoder answers a frame BAD_REQUEST: its kind is unknown, or its length is not one its kind takes (R167). -/
def isBadRequest (f : Frame) : Bool :=
  (!clientKind (kindCode f) && !adminKind (kindCode f)) || !lengthTaken (kindCode f) f.length

/-- BAD_REQUEST: a frame is taken that the decoder answers BAD_REQUEST (R167, assumption 6). -/
def execBadRequest (s : State) : Host.Outcome State Fault Refusal :=
  match s.takeFrame with
  | some (f, taken) =>
    if isBadRequest f then .next (answerFrame (fun _ t => (t, plain .badRequest 1)) f taken) else .next s
  | none => .next s

end Sys2Proof.Machine
end

