-- ==== Sys2Proof/Machine/Admin.lean ====
section
/-! DEFINITION. The admin requests of the Table Unit: the service state, the six tables, the term store and Clear
Holdings (01_service_state_and_entitlement_tables.md, 02_rule_chains.md). -/

namespace Sys2Proof.Machine

/-- The answer OK with a detail and no body. -/
def okay (detail : Nat) : Answer := plain .ok detail

/-! ### The service state (R1 to R3) -/

/-- Open Service: refused before the first Set Time; else the pass over every pool (R2, R119). -/
def serveOpenService (_ : Frame) (s : State) : State × Answer :=
  if s.timeState = .unset then (s, plain .timeUnset 0)
  else if s.service = .opened then (s, okay 1)
  else (({ s with service := .opened }.pass s.siteTime).settle, okay 0)

/-- OPEN_SERVICE (R2). -/
def execOpenService (s : State) : Host.Outcome State Fault Refusal := serveKind 0x21 serveOpenService s

/-- Close Service (R3). -/
def serveCloseService (_ : Frame) (s : State) : State × Answer :=
  if s.service = .closed then (s, okay 1) else ({ s with service := .closed }, okay 0)

/-- CLOSE_SERVICE (R3). -/
def execCloseService (s : State) : Host.Outcome State Fault Refusal := serveKind 0x22 serveCloseService s

/-! ### Pools (R6) -/

/-- The over state recomputed where an edit changed a capacity or a reserve, and then the scan where the edit asks for
one, by itself or by taking the pool out of over; the scan's due deadlines are handled before the reply (R4, R47,
R49). -/
def State.afterEdit (s : State) (pool : Nat) (recompute asked : Bool) : State :=
  let wasOver := (s.pool pool).isOver
  let s := if recompute then s.recomputeOver pool s.siteTime else s
  if asked || (wasOver && !(s.pool pool).isOver) then (s.scan pool s.siteTime).settle else s

/-- Define Pool (R6). -/
def serveDefinePool (f : Frame) (s : State) : State × Answer :=
  if Config.pools ≤ field f 2 then (s, badField 2)
  else
    let q := s.pool (field f 2)
    let edited := s.setPool (field f 2) { q with capacity := field f 3, borrowCap := field f 4 }
    let after := edited.afterEdit (field f 2) (field f 3 != q.capacity) (q.capacity < field f 3)
    (after, okay (if (after.pool (field f 2)).isOver then 1 else 0))

/-- DEFINE_POOL (R6). -/
def execDefinePool (s : State) : Host.Outcome State Fault Refusal := serveKind 0x23 serveDefinePool s

/-! ### Projects (R7, R8) -/

/-- Define Project (R7). -/
def serveDefineProject (f : Frame) (s : State) : State × Answer :=
  if field f 2 = 0 then (s, badField 2)
  else if field f 2 ∈ s.projects then (s, okay 1)
  else if Config.projectEntries ≤ s.projects.length then (s, plain .tableFull 0)
  else ({ s with projects := s.projects ++ [field f 2] }, okay 0)

/-- DEFINE_PROJECT (R7). -/
def execDefineProject (s : State) : Host.Outcome State Fault Refusal := serveKind 0x24 serveDefineProject s

/-- What still uses a project: a counted holding, a WAITING waiter or an allotment, tested in that order (R8). -/
def State.projectUse (s : State) (project : Nat) : Option Nat :=
  if s.holdings.any (fun e => e.2.state.counted && e.2.project == project) then some 1
  else if s.waiters.any (fun e => e.2.state == .waiting && e.2.project == project) then some 2
  else if s.allotments.any (fun a => a.project == project) then some 3
  else none

/-- Remove Project (R8). -/
def serveRemoveProject (f : Frame) (s : State) : State × Answer :=
  if field f 2 = 0 then (s, badField 2)
  else if field f 2 ∉ s.projects then (s, plain .unknownProject 0)
  else
    match s.projectUse (field f 2) with
    | some use => (s, plain .inUse use)
    | none => ({ s with projects := s.projects.erase (field f 2) }, okay 0)

/-- REMOVE_PROJECT (R8). -/
def execRemoveProject (s : State) : Host.Outcome State Fault Refusal := serveKind 0x25 serveRemoveProject s

/-! ### Allotments (R10 to R12) -/

/-- The tokens charged by the counted holdings of a project in a pool (R9, R10). -/
def State.projectTokens (s : State) (project pool : Nat) : Nat :=
  ((s.holdings.filter (fun e => e.2.state.counted && e.2.project == project && e.2.pool == pool)).map
    (fun e => e.2.tokens)).sum

/-- The cap that a Define Allotment frame carries; a cap marked absent is not read (R171). -/
def carriedCap (f : Frame) : Option Nat := if field f 5 = 1 then some (field f 6) else none

/-- A cap that is raised or removed (R11). -/
def capEased (before after : Option Nat) : Bool :=
  match before, after with
  | some a, some b => a < b
  | some _, none => true
  | none, _ => false

/-- Define Allotment on an existing key: reserve and cap are replaced (R11). -/
def State.replaceAllotment (s : State) (a : Allotment) (reserve : Nat) (cap : Option Nat) : State :=
  (s.changeAllotment a.project a.pool (fun x => { x with reserve := reserve, cap := cap })).afterEdit a.pool
    (reserve != a.reserve) (reserve < a.reserve || capEased a.cap cap)

/-- Define Allotment (R10, R11). -/
def serveDefineAllotment (f : Frame) (s : State) : State × Answer :=
  match firstBadWord [(2, field f 2 == 0), (3, Config.pools ≤ field f 3), (5, 1 < field f 5)] with
  | some w => (s, badField w)
  | none =>
    match s.allotment (field f 2) (field f 3) with
    | some a => (s.replaceAllotment a (field f 4) (carriedCap f), okay 1)
    | none =>
      if field f 2 ∉ s.projects then (s, plain .unknownProject 0)
      else if Config.allotmentEntries ≤ s.allotments.length then (s, plain .tableFull 0)
      else
        let made : Allotment :=
          { project := field f 2, pool := field f 3, reserve := field f 4, cap := carriedCap f,
            used := s.projectTokens (field f 2) (field f 3) }
        (({ s with allotments := s.allotments ++ [made] }).recomputeOver (field f 3) s.siteTime, okay 0)

/-- DEFINE_ALLOTMENT (R10). -/
def execDefineAllotment (s : State) : Host.Outcome State Fault Refusal := serveKind 0x26 serveDefineAllotment s

/-- Remove Allotment (R12). -/
def serveRemoveAllotment (f : Frame) (s : State) : State × Answer :=
  match firstBadWord [(2, field f 2 == 0), (3, Config.pools ≤ field f 3)] with
  | some w => (s, badField w)
  | none =>
    match s.allotment (field f 2) (field f 3) with
    | none => (s, okay 0)
    | some a =>
      if 0 < a.used then (s, plain .inUse 6)
      else
        let kept := s.allotments.filter (fun x => !x.keyed (field f 2) (field f 3))
        ({ s with allotments := kept }.afterEdit (field f 3) true true, okay 1)

/-- REMOVE_ALLOTMENT (R12). -/
def execRemoveAllotment (s : State) : Host.Outcome State Fault Refusal := serveKind 0x27 serveRemoveAllotment s

/-! ### Features (R14 to R18, R21) -/

/-- The field check of Define Feature (R14, R171): a start day after the end day names the end day's word, and a chain
start marked absent is not checked. -/
def featureBadWord (f : Frame) : Option Nat :=
  firstBadWord
    [(2, field f 2 == 0), (3, Config.pools ≤ field f 3), (4, field f 4 == 0 || 255 < field f 4),
      (5, (Sharing.ofCode (field f 5)).isNone), (6, 49709 < field f 6),
      (7, (49709 < field f 7 && field f 7 != 65535) || (field f 7 < field f 6 && field f 7 != 65535)),
      (8, field32 f 8 < 60 || 86400 < field32 f 8), (10, 3600 < field f 10), (11, 30 < field f 11),
      (12, 1 < field f 12), (13, field f 12 == 1 && Config.termSlots ≤ field f 13)]

/-- The record that a Define Feature frame carries, ACTIVE, its end instant not yet lodged (R15, section 10.3). -/
def carriedFeature (f : Frame) : Feature :=
  { state := .active
    pool := field f 3
    weight := field f 4
    sharing := (Sharing.ofCode (field f 5)).getD .separate
    startDay := field f 6
    endDay := endDayOfWord (field f 7)
    lease := field32 f 8
    linger := field f 10
    borrowMax := field f 11
    chain := if field f 12 = 1 then some (field f 13) else none
    endLodged := false }

/-- Lowers the deadlines of a feature's counted holdings and WAITING waiters that lie past a new end instant (R17). -/
def State.reclamp (s : State) (code e : Nat) : State :=
  let s := s.holdings.foldl
    (fun acc x =>
      if x.2.state.counted ∧ x.2.feature = code ∧ e < x.2.deadline then acc.placeHolding x.1 { x.2 with deadline := e }
      else acc) s
  s.waiters.foldl
    (fun acc x =>
      if x.2.state = .waiting ∧ x.2.feature = code ∧ e < x.2.deadline then
        acc.placeWaiter x.1 { x.2 with deadline := e }
      else acc) s

/-- Replaces the record of an ACTIVE feature: with an equal end day its end-instant deadline stays as it is; with
another one the deadlines are re-clamped, the new end instant is lodged in place of the old, and what is reached is
handled (R16, R17, R136). -/
def State.replaceFeature (s : State) (code : Nat) (old new : Feature) : State :=
  if new.endDay = old.endDay then s.setFeature code { new with endLodged := old.endLodged }
  else
    let clamped :=
      match new.endInstant with
      | some e => s.reclamp code e
      | none => s
    (clamped.placeFeature code new).settle

/-- What keeps a Define Feature from replacing an ACTIVE record: a changed pool or sharing kind while the feature has a
counted holding (1) or a WAITING waiter (2) (R16). -/
def State.featureUse (s : State) (code : Nat) (old new : Feature) : Option Nat :=
  if new.pool = old.pool ∧ new.sharing = old.sharing then none
  else if s.featureHeld code then some 1
  else if s.featureWaited code then some 2
  else none

/-- The offset of the first bad slot of a feature's chain; none for a well-formed chain or no chain (R40). -/
def State.featureChainFault (s : State) (f : Feature) : Option Nat :=
  match f.chain with
  | some start => s.chainFault start
  | none => none

/-- Define Feature (R14 to R16, R40). -/
def serveDefineFeature (f : Frame) (s : State) : State × Answer :=
  match featureBadWord f with
  | some w => (s, badField w)
  | none =>
    let new := carriedFeature f
    match s.feature (field f 2) with
    | none =>
      if Config.featureEntries ≤ s.features.length then (s, plain .tableFull 0)
      else
        match s.featureChainFault new with
        | some offset => (s, plain .chainForm offset)
        | none => ((s.placeFeature (field f 2) new).settle, okay 0)
    | some old =>
      if old.state = .retiring then (s, plain .inUse 4)
      else
        match s.featureUse (field f 2) old new with
        | some use => (s, plain .inUse use)
        | none =>
          match s.featureChainFault new with
          | some offset => (s, plain .chainForm offset)
          | none => (s.replaceFeature (field f 2) old new, okay 1)

/-- DEFINE_FEATURE (R14). -/
def execDefineFeature (s : State) : Host.Outcome State Fault Refusal := serveKind 0x28 serveDefineFeature s

/-- An ACTIVE feature retires: RETIRING, its WAITING waiters ended with reason RETIRED, and drained at once where no
counted holding remains (R18). -/
def State.retire (s : State) (code : Nat) (f : Feature) : State :=
  ((s.setFeature code { f with state := .retiring }).endFeatureWaiters code .retired s.siteTime).drainReport code
    s.siteTime

/-- Retire Feature (R18). -/
def serveRetireFeature (f : Frame) (s : State) : State × Answer :=
  if field f 2 = 0 then (s, badField 2)
  else
    match s.feature (field f 2) with
    | none => (s, plain .unknownFeature 0)
    | some r =>
      if r.state = .retiring then (s, plain .retired 0)
      else (s.retire (field f 2) r, okay (if s.featureHeld (field f 2) then 0 else 1))

/-- RETIRE_FEATURE (R18). -/
def execRetireFeature (s : State) : Host.Outcome State Fault Refusal := serveKind 0x29 serveRetireFeature s

/-- The body of Query Feature (R21, section 10.3). -/
def State.featureBody (s : State) (code : Nat) (f : Feature) : List Word :=
  [wordOf f.state.code, wordOf f.pool, wordOf f.weight, wordOf f.sharing.code, wordOf f.startDay, endDayWord f.endDay]
    ++ words32 f.lease
    ++ [wordOf f.linger, wordOf f.borrowMax, flagWord f.chain.isSome, optWord f.chain,
      wordOf (s.holdingCount code .live), wordOf (s.holdingCount code .borrowed),
      wordOf (s.holdingCount code .lingering), wordOf (s.holdingCount code .lapsed), wordOf (s.waitingCount code)]

/-- Query Feature (R21). -/
def serveQueryFeature (f : Frame) (s : State) : State × Answer :=
  if field f 2 = 0 then (s, badField 2)
  else
    match s.feature (field f 2) with
    | none => (s, plain .unknownFeature 0)
    | some r => (s, { code := .ok, detail := 0, body := s.featureBody (field f 2) r })

/-- QUERY_FEATURE (R21). -/
def execQueryFeature (s : State) : Host.Outcome State Fault Refusal := serveKind 0x2A serveQueryFeature s

/-! ### The term store (R42, R43) -/

/-- The first of the run's slots that is badly coded, as the word it begins in (R42, R173). -/
def slotBadWord (f : Frame) : Option Nat :=
  firstBadWord ((List.range (slotCount f)).map (fun i => (3 + 2 * i, (carriedSlot f i).isNone)))

/-- Writes the slots of the run, in order from slot number `first` (R43). -/
def State.writeSlots (s : State) (f : Frame) (first : Nat) : State :=
  { s with
    terms := (List.range (slotCount f)).foldl
      (fun t i => tablePut Slot.initial t (first + i) ((carriedSlot f i).getD Slot.initial)) s.terms }

/-- Write Terms (R42, R43). -/
def serveWriteTerms (f : Frame) (s : State) : State × Answer :=
  if Config.termSlots < field f 2 + slotCount f ∨ Config.termSlots ≤ field f 2 then (s, badField 2)
  else
    match slotBadWord f with
    | some w => (s, badField w)
    | none =>
      if (List.range (slotCount f)).any (fun i => s.slotInUse (field f 2 + i)) then (s, plain .inUse 7)
      else (s.writeSlots f (field f 2), okay (slotCount f))

/-- WRITE_TERMS (R42). -/
def execWriteTerms (s : State) : Host.Outcome State Fault Refusal := serveKind 0x2B serveWriteTerms s

/-! ### Users and hosts (R23, R25) -/

/-- Define User: standing 0 removes the entry, 1 is ENABLED, 2 is BARRED (R23, section 10.2). -/
def serveDefineUser (f : Frame) (s : State) : State × Answer :=
  match firstBadWord [(2, field f 2 == 0), (4, 2 < field f 4), (5, 3 < field f 5)] with
  | some w => (s, badField w)
  | none =>
    let known := (s.user (field f 2)).isSome
    if field f 4 = 0 then ({ s with users := tableErase s.users (field f 2) }, okay (if known then 1 else 0))
    else if !known && Config.userEntries ≤ s.users.length then (s, plain .tableFull 0)
    else
      let u : User :=
        { groups := f.getD 3 0#16, standing := if field f 4 = 1 then .enabled else .barred, highest := field f 5 }
      ({ s with users := tableInsert s.users (field f 2) u }, okay (if known then 1 else 0))

/-- DEFINE_USER (R23). -/
def execDefineUser (s : State) : Host.Outcome State Fault Refusal := serveKind 0x2C serveDefineUser s

/-- Define Host: presence flag 0 removes the entry (R25). -/
def serveDefineHost (f : Frame) (s : State) : State × Answer :=
  match firstBadWord [(2, field f 2 == 0), (3, 15 < field f 3), (4, 1 < field f 4)] with
  | some w => (s, badField w)
  | none =>
    let known := (tableFind s.hosts (field f 2)).isSome
    if field f 4 = 0 then ({ s with hosts := tableErase s.hosts (field f 2) }, okay (if known then 1 else 0))
    else if !known && Config.hostEntries ≤ s.hosts.length then (s, plain .tableFull 0)
    else ({ s with hosts := tableInsert s.hosts (field f 2) (field f 3) }, okay (if known then 1 else 0))

/-- DEFINE_HOST (R25). -/
def execDefineHost (s : State) : Host.Outcome State Fault Refusal := serveKind 0x2D serveDefineHost s

/-! ### Clear Holdings (R24) -/

/-- A holding entry after Clear Holdings: one that was not FREE is FREE and its generation advances. -/
def Holding.cleared (h : Holding) : Holding := if h.state = .free then h else Holding.freeEntry (nextGen h.gen)

/-- A waiter entry after Clear Holdings: one that was not FREE is FREE and its generation advances. -/
def Waiter.cleared (w : Waiter) : Waiter := if w.state = .free then w else Waiter.freeEntry (nextGen w.gen)

/-- A pool's account and queue after Clear Holdings; its definition and its OVER-unreported mark are kept. -/
def Pool.cleared (q : Pool) : Pool := { q with used := 0, borrowed := 0, lingering := 0, queue := [] }

/-- The holdings, waiters, queues and accounts emptied; every deadline of a holding or waiter withdrawn, and the
entry-starved mark cleared (R24, R61, R119, R131). -/
def State.emptied (s : State) : State :=
  { s with
    holdings := tableMap Holding.initial s.holdings Holding.cleared
    waiters := tableMap Waiter.initial s.waiters Waiter.cleared
    pools := tableMap Pool.initial s.pools Pool.cleared
    allotments := s.allotments.map (fun a => { a with used := 0 })
    starved := false
    reached := s.reached.filter (fun d => d.kind == .featureEnd)
    atOnce := s.atOnce.filter (fun d => d.kind == .featureEnd) }

/-- The over state of every pool recomputed (R24, R61). -/
def State.recomputeAll (s : State) (evt : Nat) : State :=
  (List.range Config.pools).foldl (fun acc p => acc.recomputeOver p evt) s

/-- Every RETIRING feature drains, in ascending feature code (R24). -/
def State.drainAll (s : State) (evt : Nat) : State :=
  s.features.foldl (fun acc e => if e.2.state = .retiring then acc.drain e.1 evt else acc) s

/-- Clear Holdings (R24). -/
def serveClearHoldings (_ : Frame) (s : State) : State × Answer :=
  if s.service = .opened then (s, plain .inUse 5)
  else ((s.emptied.recomputeAll s.siteTime).drainAll s.siteTime, okay 0)

/-- CLEAR_HOLDINGS (R24). -/
def execClearHoldings (s : State) : Host.Outcome State Fault Refusal := serveKind 0x2F serveClearHoldings s

end Sys2Proof.Machine
end

