-- ==== Sys2Proof/Machine/Client.lean ====
section
/-! DEFINITION. The client requests but Next Notice: Checkout, Renew, Release, Borrow, Return, Cancel Wait, Query
Holding and Query Pool (03 to 06). -/

namespace Sys2Proof.Machine

/-! ### Checkout (R74 to R82) -/

/-- The inputs that the Rule Evaluator collects for a Checkout (R28). -/
def State.ruleInputs (s : State) (a : Asking) : RuleInputs :=
  { groups :=
      match s.user a.user with
      | some u => u.groups
      | none => 0#16
    hostClass := s.hostClass a.host
    host := a.host
    project := a.project
    seats := a.seats
    hour := hourOf s.siteTime
    weekday := weekdayOf s.siteTime
    userSeats := s.userSeats a.feature a.user }

/-- The fields of a Checkout frame, the class clamped to the user's highest class (R74). -/
def checkoutAsking (f : Frame) (s : State) : Asking :=
  { feature := field f 2, user := field f 3, host := field f 4, project := field f 5, seats := field f 6,
    cls := min (field f 8) (s.highestClass (field f 3)) }

/-- The wait length of a Checkout frame, clamped to 3600 (R74). -/
def checkoutWait (f : Frame) : Nat := min (field f 7) 3600

/-- The field check of Checkout (R74). -/
def checkoutBadWord (f : Frame) : Option Nat :=
  firstBadWord
    [(2, field f 2 == 0), (3, field f 3 == 0), (4, field f 4 == 0), (6, field f 6 == 0 || 16 < field f 6)]

/-- Steps 3 to 8 of the order of checks: the answer of the first that fails (R75, R76). -/
def State.checkoutRefusal (s : State) (a : Asking) : Option Answer :=
  match s.feature a.feature with
  | none => some (plain .unknownFeature 0)
  | some f =>
    if f.state = .retiring then some (plain .retired 0)
    else if s.siteTime < f.startInstant then some (plain .notYet 0)
    else if f.ended s.siteTime then some (plain .expired 0)
    else if s.isBarred a.user then some (plain .barred 0)
    else if a.project ≠ 0 ∧ a.project ∉ s.projects then some (plain .unknownProject 0)
    else
      let v := s.verdict f (s.ruleInputs a)
      if v.1 then none else some (plain .deniedRule v.2)

/-- The body of a granted Checkout: the whole figures of the holding (R82). -/
def State.grantBody (s : State) (i : Nat) : List Word :=
  let h := s.holding i
  [wordOf i, wordOf h.gen, wordOf h.seats, wordOf h.refs, wordOf h.tokens] ++ words32 h.deadline

/-- The answer of a granted Checkout, from the state before the grant and the one after it: GRANTED, or MERGED or
REATTACHED with detail 1 where the seats were raised (R79 to R82). -/
def grantAnswer (before after : State) (a : Asking) (path : Path) (i : Nat) : Answer :=
  let raised := if (before.holding i).seats < a.seats then 1 else 0
  match path with
  | .fresh => { code := .granted, detail := 0, body := after.grantBody i }
  | .merge _ => { code := .merged, detail := raised, body := after.grantBody i }
  | .reattach _ => { code := .reattached, detail := raised, body := after.grantBody i }

/-- A Checkout whose charging condition failed: queued, or refused with the cause (R78, R111, R112). -/
def State.holdBack (s : State) (f : Feature) (a : Asking) (wait cause : Nat) : State × Answer :=
  if wait = 0 then (s, plain .deniedCapacity cause)
  else
    match s.freeWaiter with
    | none => (s, plain .queueFull cause)
    | some j =>
      ((s.queueCheckout f a wait j).settle,
        { code := .queued, detail := cause, body := [wordOf j, wordOf (s.waiter j).gen] })

/-- Steps 9 to 11: the path, the charging condition, the allocation and the grant (R77 to R81). A deadline made at or
before site time is reached before the reply is placed, and the reply shows the holding as the Checkout left it
(R82, R132, R142). -/
def State.decideCheckout (s : State) (f : Feature) (a : Asking) (wait : Nat) : State × Answer :=
  let path := s.choosePath f.sharing a
  let cost := s.pathCost f.weight a.seats path
  if s.referencesFull path then (s, plain .tableFull 1)
  else
    match if cost = 0 then none else s.chargeCause f.pool a.project a.cls cost with
    | some cause => s.holdBack f a wait cause
    | none =>
      match s.pathEntry path with
      | none => (s, plain .tableFull 0)
      | some i =>
        let after := s.grantPath f a path cost i s.siteTime
        (after.settle, grantAnswer s after a path i)

/-- Checkout: the checks in their order, the first that fails deciding the answer (section 4.4). -/
def serveCheckout (f : Frame) (s : State) : State × Answer :=
  if s.service = .closed then (s, plain .closed 0)
  else
    match checkoutBadWord f with
    | some w => (s, badField w)
    | none =>
      let a := checkoutAsking f s
      match s.checkoutRefusal a with
      | some answer => (s, answer)
      | none => s.decideCheckout (s.featureOf a.feature) a (checkoutWait f)

/-- CHECKOUT (R74). -/
def execCheckout (s : State) : Host.Outcome State Fault Refusal := serveKind 0x01 serveCheckout s

/-! ### Renew (R83) -/

/-- A Renew of a holding that a handle names (R83). -/
def State.renewHolding (s : State) (i : Nat) (h : Holding) : State × Answer :=
  match h.state with
  | .lingering => (s, plain .ended 1)
  | .lapsed => (s, plain .ended 2)
  | .borrowed => (s, plain .borrowed 0)
  | .free => (s, plain .noHolding 0)
  | .live =>
    if s.isBarred h.user then (s, plain .barred 0)
    else
      let expiry := s.leaseEnd (s.featureOf h.feature)
      ((s.placeHolding i { h with deadline := expiry }).settle,
        { code := .ok, detail := 0, body := words32 expiry })

/-- Renew: a handle index above 8191 names word 2, and a stale handle is answered NO_HOLDING (R66, R83). -/
def serveRenew (f : Frame) (s : State) : State × Answer :=
  if Config.holdingEntries ≤ field f 2 then (s, badField 2)
  else
    match s.handleNames (field f 2) (field f 3) with
    | none => (s, plain .noHolding 0)
    | some h => s.renewHolding (field f 2) h

/-- RENEW (R83). -/
def execRenew (s : State) : Host.Outcome State Fault Refusal := serveKind 0x02 serveRenew s

/-! ### Release (R84, R85) -/

/-- The release of a LIVE holding's last reference: LINGERING, or FREE (R85, R58). -/
def State.releaseLast (s : State) (i : Nat) (h : Holding) (returnNow : Bool) : State × Answer :=
  let f := s.featureOf h.feature
  if 0 < f.linger ∧ returnNow = false then
    let lingerEnd := f.clamp (s.siteTime + f.linger)
    let q := s.pool h.pool
    let s := s.placeHolding i { h with state := .lingering, refs := 0, deadline := lingerEnd }
    let s := s.setPool h.pool { q with lingering := q.lingering + h.tokens }
    (s.settle, { code := .ok, detail := 1, body := 0#16 :: words32 lingerEnd })
  else
    ((s.endHolding i s.siteTime).settle, { code := .ok, detail := 2, body := 0#16 :: words32 0 })

/-- A Release of a holding that a handle names (R84, R85). -/
def State.releaseHolding (s : State) (i : Nat) (h : Holding) (returnNow : Bool) : State × Answer :=
  match h.state with
  | .lingering => (s, plain .ended 1)
  | .lapsed => (s, plain .ended 2)
  | .borrowed => (s, plain .borrowed 0)
  | .free => (s, plain .noHolding 0)
  | .live =>
    if 1 < h.refs then
      (s.setHolding i { h with refs := h.refs - 1 },
        { code := .ok, detail := 0, body := wordOf (h.refs - 1) :: words32 h.deadline })
    else s.releaseLast i h returnNow

/-- Release: the index and the return-now flag are checked first (R84, R171). -/
def serveRelease (f : Frame) (s : State) : State × Answer :=
  match firstBadWord [(2, Config.holdingEntries ≤ field f 2), (4, 1 < field f 4)] with
  | some w => (s, badField w)
  | none =>
    match s.handleNames (field f 2) (field f 3) with
    | none => (s, plain .noHolding 0)
    | some h => s.releaseHolding (field f 2) h (field f 4 == 1)

/-- RELEASE (R84). -/
def execRelease (s : State) : Host.Outcome State Fault Refusal := serveKind 0x03 serveRelease s

/-! ### Borrow (R95 to R98) -/

/-- The conversion of a LIVE holding: BORROWED to its borrow end, its tokens added to the pool's borrowed figure
(R96, R98, R60). -/
def State.convert (s : State) (i : Nat) (h : Holding) (f : Feature) (days : Nat) : State × Answer :=
  let taken := min days f.borrowMax
  let borrowEnd := f.clamp (s.siteTime + taken * Config.daySeconds)
  let q := s.pool h.pool
  let s := s.placeHolding i { h with state := .borrowed, refs := 1, deadline := borrowEnd }
  let s := s.setPool h.pool { q with borrowed := q.borrowed + h.tokens }
  (s.settle, { code := .ok, detail := taken, body := words32 borrowEnd ++ [wordOf h.seats, wordOf h.tokens] })

/-- A Borrow of a holding that a handle names: steps 4 to 8 (R95, R97). -/
def State.borrowHolding (s : State) (i : Nat) (h : Holding) (days : Nat) : State × Answer :=
  match h.state with
  | .lingering => (s, plain .ended 1)
  | .lapsed => (s, plain .ended 2)
  | .borrowed => (s, plain .borrowed 0)
  | .free => (s, plain .noHolding 0)
  | .live =>
    let f := s.featureOf h.feature
    if s.isBarred h.user then (s, plain .barred 0)
    else if f.borrowMax = 0 then (s, plain .noBorrow 0)
    else if h.refs ≠ 1 then (s, plain .shared 0)
    else if (s.pool h.pool).borrowCap < (s.pool h.pool).borrowed + h.tokens then (s, plain .borrowCap 0)
    else s.convert i h f days

/-- Borrow: steps 1 to 3 (R95). -/
def serveBorrow (f : Frame) (s : State) : State × Answer :=
  if s.service = .closed then (s, plain .closed 0)
  else
    match firstBadWord [(2, Config.holdingEntries ≤ field f 2), (4, field f 4 == 0)] with
    | some w => (s, badField w)
    | none =>
      match s.handleNames (field f 2) (field f 3) with
      | none => (s, plain .noHolding 0)
      | some h => s.borrowHolding (field f 2) h (field f 4)

/-- BORROW (R95). -/
def execBorrow (s : State) : Host.Outcome State Fault Refusal := serveKind 0x04 serveBorrow s

/-! ### Return (R99) -/

/-- A Return of a holding that a handle names (R99). -/
def State.returnHolding (s : State) (i : Nat) (h : Holding) : State × Answer :=
  match h.state with
  | .live => (s, plain .notBorrowed 0)
  | .lingering => (s, plain .notBorrowed 0)
  | .lapsed => (s, plain .ended 2)
  | .free => (s, plain .noHolding 0)
  | .borrowed =>
    ((s.endHolding i s.siteTime).settle, { code := .ok, detail := 0, body := [wordOf h.tokens] })

/-- Return (R99). -/
def serveReturn (f : Frame) (s : State) : State × Answer :=
  if Config.holdingEntries ≤ field f 2 then (s, badField 2)
  else
    match s.handleNames (field f 2) (field f 3) with
    | none => (s, plain .noHolding 0)
    | some h => s.returnHolding (field f 2) h

/-- RETURN (R99). -/
def execReturn (s : State) : Host.Outcome State Fault Refusal := serveKind 0x05 serveReturn s

/-! ### Cancel Wait (R122, R123) -/

/-- A Cancel Wait of a waiter that a ticket names (R122, R123): CANCELLED has waiter end reason code 4. -/
def State.cancelWaiter (s : State) (j : Nat) (w : Waiter) : State × Answer :=
  match w.state with
  | .free => (s, plain .noTicket 0)
  | .waiting =>
    ((s.leaveQueue (s.featureOf w.feature).pool j).freeWaiterEntry j,
      { code := .ok, detail := 4, body := [4#16, 0#16, 0#16, 0#16, 0#16] })
  | .granted =>
    (s.freeWaiterEntry j,
      { code := .granted
        detail := if w.merged then 1 else 0
        body := [0#16, wordOf w.handleIndex, wordOf w.handleGen, 0#16, 0#16] })
  | .ended =>
    (s.freeWaiterEntry j,
      { code := .ended
        detail := waiterEndCode w.endReason
        body := [wordOf (waiterEndCode w.endReason), 0#16, 0#16] ++ words32 w.eventTime })

/-- Cancel Wait: a ticket index above 255 names word 2, and a stale ticket is answered NO_TICKET (R108, R122). -/
def serveCancelWait (f : Frame) (s : State) : State × Answer :=
  if Config.waiterEntries ≤ field f 2 then (s, badField 2)
  else
    match s.ticketNames (field f 2) (field f 3) with
    | none => (s, plain .noTicket 0)
    | some w => s.cancelWaiter (field f 2) w

/-- CANCEL_WAIT (R122). -/
def execCancelWait (s : State) : Host.Outcome State Fault Refusal := serveKind 0x06 serveCancelWait s

/-! ### Query Holding (R92) -/

/-- The body of Query Holding: every field of the entry, those its state does not have as 0 (R92, R170). -/
def holdingBody (i : Nat) (h : Holding) : List Word :=
  [wordOf i, wordOf h.gen, wordOf h.state.code, wordOf h.feature, wordOf h.pool, wordOf h.user, wordOf h.host,
    wordOf h.project, wordOf h.seats, wordOf h.refs, wordOf h.tokens] ++ words32 h.deadline
    ++ [wordOf (holdingEndCode h.endReason)] ++ words32 h.eventTime

/-- Query Holding (R92). -/
def serveQueryHolding (f : Frame) (s : State) : State × Answer :=
  if Config.holdingEntries ≤ field f 2 then (s, badField 2)
  else
    match s.handleNames (field f 2) (field f 3) with
    | none => (s, plain .noHolding 0)
    | some h => (s, { code := .ok, detail := 0, body := holdingBody (field f 2) h })

/-- QUERY_HOLDING (R92). -/
def execQueryHolding (s : State) : Host.Outcome State Fault Refusal := serveKind 0x07 serveQueryHolding s

/-! ### Query Pool (R62, R63) -/

/-- The allotment words of Query Pool: 0 absent, 1 present without a cap, 2 present with a cap; then the reserve, the
cap and the used figure (section 10.3). Project 0 has no allotment (R62). -/
def allotmentWords : Option Allotment → List Word
  | none => [0#16, 0#16, 0#16, 0#16]
  | some a => [if a.cap.isSome then 2#16 else 1#16, wordOf a.reserve, optWord a.cap, wordOf a.used]

/-- The body of Query Pool (R62, R63). -/
def State.poolBody (s : State) (pool project : Nat) : List Word :=
  let q := s.pool pool
  [wordOf q.capacity, wordOf q.borrowCap, wordOf q.used, wordOf q.borrowed, wordOf q.lingering]
    ++ words32 (s.reserveSum pool)
    ++ [wordOf q.queue.length, flagWord q.isOver, wordOf (s.headroom pool project)]
    ++ allotmentWords (if project = 0 then none else s.allotment project pool)

/-- Query Pool (R62). -/
def serveQueryPool (f : Frame) (s : State) : State × Answer :=
  if Config.pools ≤ field f 2 then (s, badField 2)
  else if field f 3 ≠ 0 ∧ field f 3 ∉ s.projects then (s, plain .unknownProject 0)
  else (s, { code := .ok, detail := 0, body := s.poolBody (field f 2) (field f 3) })

/-- QUERY_POOL (R62). -/
def execQueryPool (s : State) : Host.Outcome State Fault Refusal := serveKind 0x08 serveQueryPool s

end Sys2Proof.Machine
end

