-- ==== Sys2Proof/Machine/Clock.lean ====
section
/-! DEFINITION. The Time Unit: REFCLK periods, the advance of site time, the taking of deadlines that an advance
reached, and Set Time (07_site_time_and_deadlines.md). -/

namespace Sys2Proof.Machine

/-! ### The count (R129) -/

/-- Handles every deadline that the last advance reached and that no command has taken yet: the second in which they
fall is over (R132, assumption 8). -/
def State.closeSecond (s : State) : State := { s with reached := [], atOnce := s.atOnce ++ s.reached }.settle

/-- The divider turns over: it returns to 0 and site time advances by one second, unless it stands at its top. The
deadlines equal to the new site time are reached, each to be taken by its own command (R129, R132). -/
def State.advance (s : State) : State :=
  if Config.topOfTime ≤ s.siteTime then { s with divider := 0 }
  else
    let s := { s with divider := 0 }.closeSecond
    { s with
      siteTime := s.siteTime + 1
      reached := s.deadlines.filter (fun d => d.second == s.siteTime + 1) }

/-- The clock counts: RESETn is released and the time-set state is SET (R128, R129). -/
def State.counting (s : State) : Bool := !s.resetLow && s.timeState == .set

/-- REFCLK_PERIOD: one period raises the divider by 1; the period that would take it past 32767 turns it over
(R129). -/
def execRefclkPeriod (s : State) : Host.Outcome State Fault Refusal :=
  if s.counting = false then .next s
  else if s.divider + 1 < Config.periodsPerSecond then .next { s with divider := s.divider + 1 }
  else .next s.advance

/-- SITE_TIME_ADVANCE: the divider turns over. The command stands for the periods that remain of the second
(R129, assumption 7). -/
def execSiteTimeAdvance (s : State) : Host.Outcome State Fault Refusal :=
  if s.counting = false then .next s else .next s.advance

/-! ### Deadlines reached by an advance (R132, R133) -/

/-- The deadline of a kind and a record that an advance reached; in device reset there is none. -/
def State.reachedOf (s : State) (kind : DeadlineKind) (record : Nat) : Option Deadline :=
  if s.resetLow then none else s.reached.find? (fun d => d.kind == kind && d.record == record)

/-- A reached deadline is no longer among those that wait for their command. -/
def State.taken (s : State) (d : Deadline) : State := { s with reached := s.reached.erase d }

/-- Takes a deadline of a kind and a record that an advance reached; where none is reached, nothing comes about
(R133, assumption 8). -/
def State.takeReached (s : State) (kind : DeadlineKind) (record : Nat) : State :=
  match s.reachedOf kind record with
  | some d => ((s.taken d).handle d).settle
  | none => s

/-- LEASE_EXPIRY (R87). -/
def execLeaseExpiry (entry : Nat) (s : State) : Host.Outcome State Fault Refusal :=
  .next (s.takeReached .leaseExpiry entry)

/-- LINGER_END (R86). -/
def execLingerEnd (entry : Nat) (s : State) : Host.Outcome State Fault Refusal :=
  .next (s.takeReached .lingerEnd entry)

/-- BORROW_END (R100). -/
def execBorrowEnd (entry : Nat) (s : State) : Host.Outcome State Fault Refusal :=
  .next (s.takeReached .borrowEnd entry)

/-- WAIT_DEADLINE (R120). -/
def execWaitDeadline (entry : Nat) (s : State) : Host.Outcome State Fault Refusal :=
  .next (s.takeReached .waitDeadline entry)

/-- FEATURE_END_INSTANT (R19). -/
def execFeatureEndInstant (code : Nat) (s : State) : Host.Outcome State Fault Refusal :=
  .next (s.takeReached .featureEnd code)

/-! ### Set Time (R137 to R140) -/

/-- The first Set Time, or a forward step. The deadlines that the last advance reached are handled before it, their
scans counted from that second (R135, R141). Then site time takes the value, the divider restarts, and every deadline at
or before it is handled in order of its second (R137, R139). -/
def State.stepTo (s : State) (v : Nat) : State :=
  let s := { s.closeSecond with siteTime := v, timeState := .set, divider := 0 }
  { s with atOnce := s.deadlines.filter (fun d => d.second ≤ v) }.settle

/-- Lodges again the end instant of a feature that lies after a site time (R140). -/
def Feature.lodgedAfter (v : Nat) (f : Feature) : Feature :=
  match f.endInstant with
  | some e => if v < e then { f with endLodged := true } else f
  | none => f

/-- A backward step: site time and the divider, and the end instants that now lie ahead are lodged again (R140). -/
def State.stepBack (s : State) (v : Nat) : State :=
  { s with
    siteTime := v
    divider := 0
    features := s.features.map (fun e => (e.1, e.2.lodgedAfter v))
    reached := s.reached.filter (fun d => !(d.kind == .featureEnd && v < d.second)) }

/-- The answer to Set Time, which always carries the site time as it stands (section 7.4). -/
def timeAnswer (code : ReplyCode) (detail : Nat) (s : State) : Answer :=
  { code := code, detail := detail, body := words32 s.siteTime }

/-- Every holding entry is FREE. -/
def State.holdingsFree (s : State) : Bool := s.holdings.all (fun e => e.2.state == .free)

/-- Every waiter entry is FREE. -/
def State.waitersFree (s : State) : Bool := s.waiters.all (fun e => e.2.state == .free)

/-- Set Time (section 7.4). -/
def serveSetTime (f : Frame) (s : State) : State × Answer :=
  let v := field32 f 2
  if s.timeState = .unset then (s.stepTo v, timeAnswer .ok 0 (s.stepTo v))
  else if s.siteTime < v then (s.stepTo v, timeAnswer .ok 1 (s.stepTo v))
  else if v = s.siteTime then ({ s with divider := 0 }, timeAnswer .ok 2 s)
  else if s.holdingsFree = false then (s, timeAnswer .timeBackward 1 s)
  else if s.waitersFree = false then (s, timeAnswer .timeBackward 2 s)
  else (s.stepBack v, timeAnswer .ok 3 (s.stepBack v))

/-- SET_TIME (R139). -/
def execSetTime (s : State) : Host.Outcome State Fault Refusal := serveKind 0x20 serveSetTime s

end Sys2Proof.Machine
end

