-- ==== Sys2Proof/Machine/Flags.lean ====
section
/-! DEFINITION. The conditions that the host sees beside the frames: the pending notice records, ATTN, RDY and the
link status byte (08_notices_and_the_attention_line.md, 09_the_request_link.md). -/

namespace Sys2Proof.Machine

/-! ### Pending notice records (R143) -/

/-- The event time and index of a waiter entry in a state. -/
def waiterRecord (st : WaiterState) (e : Nat × Waiter) : Option (Nat × Nat) :=
  if e.2.state = st then some (e.2.eventTime, e.1) else none

/-- The event time and index of a LAPSED holding entry. -/
def lapseRecord (e : Nat × Holding) : Option (Nat × Nat) :=
  if e.2.state = .lapsed then some (e.2.eventTime, e.1) else none

/-- The event time and index of a pool marked OVER-unreported. -/
def overRecord (e : Nat × Pool) : Option (Nat × Nat) := e.2.overMark.map (fun t => (t, e.1))

/-- The pending records of a kind, each as its event time and its index (R143). -/
def State.records (s : State) : NoticeKind → List (Nat × Nat)
  | .grant => s.waiters.filterMap (waiterRecord .granted)
  | .waitEnd => s.waiters.filterMap (waiterRecord .ended)
  | .lapse => s.holdings.filterMap lapseRecord
  | .poolOver => s.pools.filterMap overRecord
  | .drained => s.drained.map (fun d => (d.eventTime, d.feature))

/-- The oldest record of a kind: the earliest event time, then the lowest index (R147). -/
def State.oldest (s : State) (k : NoticeKind) : Option (Nat × Nat) := firstBy timeThenIndex (s.records k)

/-- The settings of a kind (R144). -/
def NoticeSettings.of (n : NoticeSettings) : NoticeKind → NoticeSetting
  | .grant => n.grant
  | .waitEnd => n.waitEnd
  | .lapse => n.lapse
  | .poolOver => n.poolOver
  | .drained => n.drained

/-- The five kinds in tie order (R143). -/
def noticeKinds : List NoticeKind := [.grant, .waitEnd, .lapse, .poolOver, .drained]

/-- An enabled kind with a pending record. -/
def State.calls (s : State) (k : NoticeKind) : Bool := (s.notices.of k).enable && !(s.records k).isEmpty

/-- The kind that Next Notice with ANY chooses: of the enabled kinds with a pending record the one of highest level,
and among those of equal level the one of lowest tie position (R148). -/
def State.chosenKind (s : State) : Option NoticeKind :=
  firstBy (fun a b => (s.notices.of b).level < (s.notices.of a).level) (noticeKinds.filter s.calls)

/-! ### Lines (R145, R165) -/

/-- ATTN is asserted exactly while some enabled notice kind has a pending record (R145). -/
def State.attn (s : State) : Bool := noticeKinds.any s.calls

/-- The request FIFO has room, and RDY is asserted, while it holds fewer than 16 frames (R158, R165). -/
def State.rdy (s : State) : Bool := s.fifo.length < Config.linkFrames

/-! ### The link status byte (R163, R174) -/

/-- A byte in which one bit stands for a condition. -/
def conditionBit (n : Nat) (condition : Bool) : Byte := if condition then 1#8 <<< n else 0#8

/-- The status byte: ROOM, REPLY, ATTN, OVERRUN, FRAMING and ADMEN in bits 7..2, and bits 1..0 as 0 (R174). -/
def State.statusByte (s : State) : Byte :=
  conditionBit 7 s.rdy ||| conditionBit 6 (!s.replies.isEmpty) ||| conditionBit 5 s.attn ||| conditionBit 4 s.overrun
    ||| conditionBit 3 s.framing ||| conditionBit 2 s.admen

end Sys2Proof.Machine
end

