-- ==== Sys2Proof/Machine/Link.lean ====
section
/-! DEFINITION. The Link Port and the lines beside it: the transactions of the SPI link, RESETn and ADMEN
(09_the_request_link.md). -/

namespace Sys2Proof.Machine

/-! ### Transactions (R157 to R164) -/

/-- What a Write Frame does with the bytes after its command byte: overrun where the FIFO is full; framing where the
length is out of range or the frame is not complete; else the frame joins the FIFO (R159, R160). -/
def State.receiveFrame (s : State) (sdi : List Byte) : State :=
  if Config.linkFrames ≤ s.fifo.length then { s with overrun := true }
  else
    match wordsOf sdi with
    | [] => { s with framing := true }
    | w :: ws =>
      if lengthOf w < 2 ∨ 40 < lengthOf w then { s with framing := true }
      else if (w :: ws).length < lengthOf w then { s with framing := true }
      else { s with fifo := s.fifo ++ [(w :: ws).take (lengthOf w)] }

/-- What the host reads on SDO: the status byte as it stands when SELn goes low, then what the transaction sends, and
00h past its end, for as long as the host clocks (R157, R163). -/
def State.shiftOut (s : State) (sent : List Byte) (clocked : Clocked) : State :=
  { s with
    sdo := s.statusByte :: (sent ++ List.replicate clocked.bytes 0#8).take clocked.bytes
    sdoBits := leadingBits (sent.getD clocked.bytes 0#8) clocked.cut }

/-- A Write Frame transaction: the status byte, then 00h for as long as the host clocks (R157, R159). -/
def State.writeTransaction (s : State) (sdi : Sent) : State :=
  (s.shiftOut [] sdi.clocked).receiveFrame sdi.bytes

/-- A Read Frame transaction: the oldest reply is removed and shifted out, or an EMPTY frame is sent (R161, R162). -/
def State.readTransaction (s : State) (clocked : Clocked) : State :=
  { s.shiftOut (bytesOf (s.replies.headD emptyFrame)) clocked with replies := s.replies.tail }

/-- A Read Status transaction: a second copy of the status byte is sent, and both flags are cleared at its end
(R163). -/
def State.statusTransaction (s : State) (clocked : Clocked) : State :=
  { s.shiftOut [s.statusByte] clocked with overrun := false, framing := false }

/-- A transaction in which SELn rises before the command byte is complete: the framing flag is set, and the host has
read the first bits of the status byte (R164). -/
def State.cutTransaction (s : State) (cut : Fin 8) : State :=
  { s with framing := true, sdo := [], sdoBits := leadingBits s.statusByte cut }

/-- A transaction, by its command byte; none where SELn rose before it was complete (R157, R164). -/
def State.transaction (s : State) (command : Option Byte) (sdi : Sent) : State :=
  match command with
  | none => s.cutTransaction sdi.cut
  | some b =>
    if b = 0x01#8 then s.writeTransaction sdi
    else if b = 0x02#8 then s.readTransaction sdi.clocked
    else if b = 0x03#8 then s.statusTransaction sdi.clocked
    else { s.shiftOut [] sdi.clocked with framing := true }

/-- WRITE_FRAME (R159, R160). While RESETn is asserted the part takes no transaction (R157). -/
def execWriteFrame (sdi : Sent) (s : State) : Host.Outcome State Fault Refusal :=
  .next (if s.resetLow then s else s.writeTransaction sdi)

/-- READ_FRAME (R161, R162). While RESETn is asserted the part takes no transaction (R157). -/
def execReadFrame (clocked : Clocked) (s : State) : Host.Outcome State Fault Refusal :=
  .next (if s.resetLow then s else s.readTransaction clocked)

/-- READ_STATUS (R163). While RESETn is asserted the part takes no transaction (R157). -/
def execReadStatus (clocked : Clocked) (s : State) : Host.Outcome State Fault Refusal :=
  .next (if s.resetLow then s else s.statusTransaction clocked)

/-- BAD_COMMAND_BYTE (R164). While RESETn is asserted the part takes no transaction (R157). An ill-formed command
whose byte is 01h, 02h or 03h is the transaction that the byte names (assumption 20). -/
def execBadCommandByte (command : Option Byte) (sdi : Sent) (s : State) : Host.Outcome State Fault Refusal :=
  .next (if s.resetLow then s else s.transaction command sdi)

/-! ### Lines (R168, R169) -/

/-- Every block in its device-reset state. The level of ADMEN is an input, the commands that wait are outside the
part, and the choice counter is the model's: these three stay (R169, assumption 1). -/
def State.toReset (s : State) : State :=
  { State.reset with admen := s.admen, pending := s.pending, choices := s.choices }

/-- DEVICE_RESET: RESETn is asserted, and every block takes its device-reset state (R169). -/
def execDeviceReset (s : State) : Host.Outcome State Fault Refusal := .next { s.toReset with resetLow := true }

/-- RESET_RELEASE: RESETn is released and leaves the part in its device-reset state (R169); where RESETn was not
asserted, nothing changes. -/
def execResetRelease (s : State) : Host.Outcome State Fault Refusal := .next (if s.resetLow then s.toReset else s)

/-- ADMEN_CHANGE: the level by which the frames taken afterwards are judged and that later status bytes report
(R168). -/
def execAdmenChange (level : Bool) (s : State) : Host.Outcome State Fault Refusal := .next { s with admen := level }

end Sys2Proof.Machine
end

