-- ==== Sys2Proof/Machine/Notices.lean ====
section
/-! DEFINITION. Next Notice and Set Notice Levels (08_notices_and_the_attention_line.md). -/

namespace Sys2Proof.Machine

/-! ### Next Notice (R148 to R154) -/

/-- The owner lets a reported record go (R151 to R154): a waiter or holding entry is freed, an OVER mark is cleared, a
drained-feature record is removed. The freeing of a holding entry is reported to the Grant Engine, whose resumption
pass may follow. -/
def State.consume (s : State) (k : NoticeKind) (time index : Nat) : State :=
  match k with
  | .grant => s.freeWaiterEntry index
  | .waitEnd => s.freeWaiterEntry index
  | .lapse => ((s.clearEntry index).entryFreed none s.siteTime).settle
  | .poolOver => s.setPool index { s.pool index with overMark := none }
  | .drained => { s with drained := s.drained.erase { feature := index, eventTime := time } }

/-- The words that a GRANT and a WAIT_END report share: the ticket and the fields of the request (R151). -/
def ticketWords (j : Nat) (w : Waiter) : List Word :=
  [wordOf j, wordOf w.gen, wordOf w.feature, wordOf w.user, wordOf w.host, wordOf w.project, wordOf w.seats,
    wordOf w.cls]

/-- The words of a report from word 4 on, from the state at decode (R151 to R154, section 10.3). -/
def State.reportWords (s : State) (k : NoticeKind) (time index : Nat) : List Word :=
  match k with
  | .grant =>
    let w := s.waiter index
    ticketWords index w ++ [wordOf w.handleIndex, wordOf w.handleGen, flagWord w.merged] ++ words32 w.eventTime
  | .waitEnd =>
    let w := s.waiter index
    ticketWords index w ++ [wordOf (waiterEndCode w.endReason)] ++ words32 w.eventTime
  | .lapse =>
    let h := s.holding index
    [wordOf index, wordOf h.gen, wordOf h.feature, wordOf h.pool, wordOf h.user, wordOf h.host, wordOf h.project,
      wordOf h.seats, wordOf h.tokens, wordOf (holdingEndCode h.endReason)] ++ words32 h.eventTime
  | .poolOver =>
    let q := s.pool index
    wordOf index :: words32 time ++ [wordOf q.used, wordOf q.capacity] ++ words32 (s.reserveSum index)
      ++ [flagWord q.isOver]
  | .drained => wordOf index :: words32 time

/-- Reports the oldest record of a kind and consumes it; the count of records still pending is taken after the
owner's consequences (R149, R150, R152). -/
def State.report (s : State) (k : NoticeKind) : State × Answer :=
  match s.oldest k with
  | none => (s, plain .noNotice 0)
  | some (time, index) =>
    let after := s.consume k time index
    (after,
      { code := .ok
        detail := k.position
        body := wordOf (after.records k).length :: s.reportWords k time index })

/-- Next Notice: selector 0 is ANY, 1 to 5 name a kind, and another is refused (R148, R149). -/
def serveNextNotice (f : Frame) (s : State) : State × Answer :=
  if field f 2 = 0 then
    match s.chosenKind with
    | some k => s.report k
    | none => (s, plain .noNotice 0)
  else
    match NoticeKind.ofPosition (field f 2) with
    | some k => s.report k
    | none => (s, badField 2)

/-- NEXT_NOTICE (R148). -/
def execNextNotice (s : State) : Host.Outcome State Fault Refusal := serveKind 0x09 serveNextNotice s

/-! ### Set Notice Levels (R146) -/

/-- The setting that a word of Set Notice Levels carries: level in the high byte, enable in the low byte. -/
def settingOf (w : Word) : NoticeSetting := ⟨(hiByte w).toNat, loByte w == 1#8⟩

/-- A word whose level is above 3 or whose enable is neither yes nor no (R146, R171). -/
def settingBad (w : Word) : Bool := 3 < (hiByte w).toNat || 1 < (loByte w).toNat

/-- A setting as the word in force. -/
def settingWord (n : NoticeSetting) : Word := joinBytes (BitVec.ofNat 8 n.level) (if n.enable then 1#8 else 0#8)

/-- Set Notice Levels: all ten values at once, or none (R146). -/
def serveSetNoticeLevels (f : Frame) (s : State) : State × Answer :=
  let word (n : Nat) : Word := f.getD n 0#16
  match firstBadWord [(2, settingBad (word 2)), (3, settingBad (word 3)), (4, settingBad (word 4)),
    (5, settingBad (word 5)), (6, settingBad (word 6))] with
  | some w => (s, badField w)
  | none =>
    let n : NoticeSettings :=
      { grant := settingOf (word 2), waitEnd := settingOf (word 3), lapse := settingOf (word 4),
        poolOver := settingOf (word 5), drained := settingOf (word 6) }
    ({ s with notices := n }, { code := .ok, detail := 0, body := noticeKinds.map (fun k => settingWord (n.of k)) })

/-- SET_NOTICE_LEVELS (R146). -/
def execSetNoticeLevels (s : State) : Host.Outcome State Fault Refusal := serveKind 0x2E serveSetNoticeLevels s

end Sys2Proof.Machine
end

