-- ==== Sys2Proof/Machine/Dispatch.lean ====
section
/-! DEFINITION. One arm per command: its meaning. -/

namespace Sys2Proof.Machine

def exec (i : Instr) (s : State) : Host.Outcome State Fault Refusal :=
  match i with
  | .writeFrame sdi => Sys2Proof.Machine.execWriteFrame sdi s
  | .readFrame clocked => Sys2Proof.Machine.execReadFrame clocked s
  | .readStatus clocked => Sys2Proof.Machine.execReadStatus clocked s
  | .badCommandByte command sdi => Sys2Proof.Machine.execBadCommandByte command sdi s
  | .deviceReset => Sys2Proof.Machine.execDeviceReset s
  | .resetRelease => Sys2Proof.Machine.execResetRelease s
  | .admenChange level => Sys2Proof.Machine.execAdmenChange level s
  | .siteTimeAdvance => Sys2Proof.Machine.execSiteTimeAdvance s
  | .leaseExpiry entry => Sys2Proof.Machine.execLeaseExpiry entry s
  | .lingerEnd entry => Sys2Proof.Machine.execLingerEnd entry s
  | .borrowEnd entry => Sys2Proof.Machine.execBorrowEnd entry s
  | .waitDeadline entry => Sys2Proof.Machine.execWaitDeadline entry s
  | .featureEndInstant code => Sys2Proof.Machine.execFeatureEndInstant code s
  | .badRequest => Sys2Proof.Machine.execBadRequest s
  | .checkout => Sys2Proof.Machine.execCheckout s
  | .renew => Sys2Proof.Machine.execRenew s
  | .release => Sys2Proof.Machine.execRelease s
  | .borrow => Sys2Proof.Machine.execBorrow s
  | .giveBack => Sys2Proof.Machine.execReturn s
  | .cancelWait => Sys2Proof.Machine.execCancelWait s
  | .queryHolding => Sys2Proof.Machine.execQueryHolding s
  | .queryPool => Sys2Proof.Machine.execQueryPool s
  | .nextNotice => Sys2Proof.Machine.execNextNotice s
  | .setTime => Sys2Proof.Machine.execSetTime s
  | .openService => Sys2Proof.Machine.execOpenService s
  | .closeService => Sys2Proof.Machine.execCloseService s
  | .definePool => Sys2Proof.Machine.execDefinePool s
  | .defineProject => Sys2Proof.Machine.execDefineProject s
  | .removeProject => Sys2Proof.Machine.execRemoveProject s
  | .defineAllotment => Sys2Proof.Machine.execDefineAllotment s
  | .removeAllotment => Sys2Proof.Machine.execRemoveAllotment s
  | .defineFeature => Sys2Proof.Machine.execDefineFeature s
  | .retireFeature => Sys2Proof.Machine.execRetireFeature s
  | .queryFeature => Sys2Proof.Machine.execQueryFeature s
  | .writeTerms => Sys2Proof.Machine.execWriteTerms s
  | .defineUser => Sys2Proof.Machine.execDefineUser s
  | .defineHost => Sys2Proof.Machine.execDefineHost s
  | .setNoticeLevels => Sys2Proof.Machine.execSetNoticeLevels s
  | .clearHoldings => Sys2Proof.Machine.execClearHoldings s
  | .refclkPeriod => Sys2Proof.Machine.execRefclkPeriod s

end Sys2Proof.Machine
end

