-- ==== Sys2Proof/Safety.lean ====
section
/-! DEFINITION. What holds of the part between steps: the invariants, in the terms the statements use. -/

namespace Sys2Proof.Machine

/-- The link keeps its bounds: at most 16 request frames, each whole, of 2..40 words and of the length that its first
word gives; at most 16 replies, each of the length that its first word gives, 3..20 words (R158, R160, R166, R170). -/
structure LinkOk (s : State) : Prop where
  fifo_room : s.fifo.length ≤ 16
  frames_whole : ∀ f ∈ s.fifo, 2 ≤ f.length ∧ f.length ≤ 40 ∧ lengthOf (f.getD 0 0#16) = f.length
  replies_room : s.replies.length ≤ 16
  replies_whole : ∀ r ∈ s.replies, 3 ≤ r.length ∧ r.length ≤ 20 ∧ lengthOf (r.getD 0 0#16) = r.length

/-- The count keeps its bounds, and an UNSET clock stands at 0 (R128, R129). -/
structure ClockOk (s : State) : Prop where
  time_bounded : s.siteTime ≤ 4294967295
  divider_bounded : s.divider ≤ 32767
  unset_zero : s.timeState = .unset → s.siteTime = 0 ∧ s.divider = 0

/-- The tables stand in their canonical form: rising numbers, and no entry, slot or pool listed that holds its reset
contents; the project list and the keys of the allotment table hold no duplicate (R7, R9, R13, R22, R25). -/
structure TablesOk (s : State) : Prop where
  features_rising : TableRising s.features
  pools_canonical : TableCanonical Pool.initial s.pools
  projects_distinct : s.projects.Nodup
  allotments_distinct : (s.allotments.map (fun a => (a.project, a.pool))).Nodup
  users_rising : TableRising s.users
  hosts_rising : TableRising s.hosts
  terms_canonical : TableCanonical Slot.initial s.terms
  holdings_canonical : TableCanonical Holding.initial s.holdings
  waiters_canonical : TableCanonical Waiter.initial s.waiters

/-- No table holds more than its capacity (R7, R9, R13, R20, R22, R25). -/
structure CapacitiesOk (s : State) : Prop where
  features_fit : s.features.length ≤ 512
  projects_fit : s.projects.length ≤ 128
  allotments_fit : s.allotments.length ≤ 256
  users_fit : s.users.length ≤ 4096
  hosts_fit : s.hosts.length ≤ 1024
  drained_fit : s.drained.length ≤ 512

/-- The drained list stands in order of event time, and records of equal event time by their code (R20, R147). -/
def DrainedOrdered (s : State) : Prop :=
  s.drained.Pairwise
    (fun a b => a.eventTime < b.eventTime ∨ (a.eventTime = b.eventTime ∧ a.feature ≤ b.feature))

/-- A holding's references are at least 1 in LIVE, exactly 1 in BORROWED, and 0 in every other state (R65). -/
def Holding.refsOk (h : Holding) : Prop :=
  match h.state with
  | .live => 1 ≤ h.refs
  | .borrowed => h.refs = 1
  | .lingering => h.refs = 0
  | .lapsed => h.refs = 0
  | .free => h.refs = 0

/-- The generations of all entries are 1 to 255 (R64, R106), references agree with states (R65), and no record stands
past the last entry of its table (R64, R106). -/
structure EntriesOk (s : State) : Prop where
  holding_gen : ∀ i, 1 ≤ (s.holding i).gen ∧ (s.holding i).gen ≤ 255
  waiter_gen : ∀ j, 1 ≤ (s.waiter j).gen ∧ (s.waiter j).gen ≤ 255
  references : ∀ i, (s.holding i).refsOk
  holdings_fit : ∀ i, 8192 ≤ i → (s.holding i).state = .free
  waiters_fit : ∀ j, 256 ≤ j → (s.waiter j).state = .free

/-- Every holding in a counted state is one of an ACTIVE or RETIRING feature, and lies in that feature's pool (R16,
R20, R95). -/
def FeaturesHeld (s : State) : Prop :=
  ∀ i, (s.holding i).state.counted = true →
    ∃ f, s.feature (s.holding i).feature = some f ∧ (s.holding i).pool = f.pool

/-- The tokens charged by a pool's holdings in the states that a test names. -/
def State.tokensIn (s : State) (pool : Nat) (named : HoldingState → Bool) : Nat :=
  ((s.holdings.filter (fun e => named e.2.state && e.2.pool == pool)).map (fun e => e.2.tokens)).sum

/-- The books balance: a pool's used, borrowed and lingering figures are the sums of the tokens charged by its counted,
its BORROWED and its LINGERING holdings (R44), and an allotment's used figure is the sum over the counted holdings of
its project in its pool (R45). -/
structure BooksOk (s : State) : Prop where
  used : ∀ p, (s.pool p).used = s.tokensIn p HoldingState.counted
  borrowed : ∀ p, (s.pool p).borrowed = s.tokensIn p (fun st => st == .borrowed)
  lingering : ∀ p, (s.pool p).lingering = s.tokensIn p (fun st => st == .lingering)
  allotment : ∀ a ∈ s.allotments, a.used = s.projectTokens a.project a.pool

/-- A pool's over state is yes exactly while its used or its reserve sum exceeds its capacity (R47). -/
def OverOk (s : State) : Prop :=
  ∀ p, p < 64 →
    ((s.pool p).isOver = true ↔
      (s.pool p).capacity < (s.pool p).used ∨ (s.pool p).capacity < s.reserveSum p)

/-- The queues hold the WAITING waiters and nothing else, each once, in the queue of its feature's pool, by falling
class; and the feature of a WAITING waiter is ACTIVE (R109, R18). -/
structure QueuesOk (s : State) : Prop where
  queued_waits : ∀ p, ∀ j ∈ (s.pool p).queue, (s.waiter j).state = .waiting
  waiting_queued : ∀ j, (s.waiter j).state = .waiting →
    ∃ f, s.feature (s.waiter j).feature = some f ∧ f.state = .active ∧ ∀ p, j ∈ (s.pool p).queue ↔ p = f.pool
  once : ∀ p, (s.pool p).queue.Nodup
  by_class : ∀ p, (s.pool p).queue.Pairwise (fun j k => (s.waiter k).cls ≤ (s.waiter j).cls)

/-- Two holdings have one merge key under a sharing kind (R67). -/
def sameMergeKey (sharing : Sharing) (a b : Holding) : Prop :=
  a.feature = b.feature ∧ a.user = b.user ∧ a.project = b.project ∧ (sharing = .station → a.host = b.host)

/-- For a feature of sharing kind USER or STATION, no two holdings in LIVE or LINGERING state share a merge key
(R68). -/
def KeysOk (s : State) : Prop :=
  ∀ i j f, s.feature (s.holding i).feature = some f → f.sharing ≠ .separate →
    ((s.holding i).state = .live ∨ (s.holding i).state = .lingering) →
    ((s.holding j).state = .live ∨ (s.holding j).state = .lingering) →
    sameMergeKey f.sharing (s.holding i) (s.holding j) → i = j

/-- Between steps no deadline waits to be handled within one, and every deadline that a record carries lies after site
time or has been reached by the last advance and waits for its own step (R131, R132). -/
structure TimelyOk (s : State) : Prop where
  none_at_once : s.atOnce = []
  ahead_or_reached : ∀ d ∈ s.deadlines, s.siteTime < d.second ∨ d ∈ s.reached

/-- No deadline of a counted holding or WAITING waiter is later than its feature's end instant, or than the top of site
time (R134). -/
structure ClampOk (s : State) : Prop where
  holdings : ∀ i, (s.holding i).state.counted = true → (s.holding i).deadline ≤ 4294967295 ∧
    ∀ f e, s.feature (s.holding i).feature = some f → f.endInstant = some e → (s.holding i).deadline ≤ e
  waiters : ∀ j, (s.waiter j).state = .waiting → (s.waiter j).deadline ≤ 4294967295 ∧
    ∀ f e, s.feature (s.waiter j).feature = some f → f.endInstant = some e → (s.waiter j).deadline ≤ e

/-- The law of chains: every feature that has a chain start points to a well-formed chain (R41). -/
def ChainsOk (s : State) : Prop :=
  ∀ code f start, s.feature code = some f → f.chain = some start → s.chainFault start = none

/-- Some holding or waiter entry is not FREE (R140). -/
def SomeEntryUsed (s : State) : Prop :=
  (∃ i, (s.holding i).state ≠ .free) ∨ (∃ j, (s.waiter j).state ≠ .free)

end Sys2Proof.Machine
end

