-- ==== Sys2Proof/Certificates/Slice0/Obligations.lean ====
section
/-! DEFINITION. The statements for the provers, and the words they are said in. -/

/-! ### The words of the statements -/

namespace Sys2Proof.Claims

open Sys2Proof.Machine

/-- The Request Decoder can take a frame, and the oldest frame of the FIFO is `f`, with `rest` behind it (R166). -/
structure Taking (s : State) (f : Frame) (rest : List Frame) : Prop where
  released : s.resetLow = false
  place : s.replies.length < 16
  front : s.fifo = f :: rest

/-- The oldest frame taken from the FIFO and one reply placed in the reply queue, in a state (R166). -/
def answered (s : State) (rest : List Frame) (r : Frame) : State :=
  { s with fifo := rest, replies := s.replies ++ [r] }

/-- The command that takes a frame of a kind code (section 10.6). -/
def takerOf : Nat → Option Instr
  | 0x01 => some .checkout
  | 0x02 => some .renew
  | 0x03 => some .release
  | 0x04 => some .borrow
  | 0x05 => some .giveBack
  | 0x06 => some .cancelWait
  | 0x07 => some .queryHolding
  | 0x08 => some .queryPool
  | 0x09 => some .nextNotice
  | 0x20 => some .setTime
  | 0x21 => some .openService
  | 0x22 => some .closeService
  | 0x23 => some .definePool
  | 0x24 => some .defineProject
  | 0x25 => some .removeProject
  | 0x26 => some .defineAllotment
  | 0x27 => some .removeAllotment
  | 0x28 => some .defineFeature
  | 0x29 => some .retireFeature
  | 0x2A => some .queryFeature
  | 0x2B => some .writeTerms
  | 0x2C => some .defineUser
  | 0x2D => some .defineHost
  | 0x2E => some .setNoticeLevels
  | 0x2F => some .clearHoldings
  | _ => none

/-- A 32-bit value of two words, the high word first (R170). -/
def value32 (hi lo : Word) : Nat := hi.toNat * 65536 + lo.toNat

/-- The outcome word of a reply: the code in the high byte, the detail in the low byte (R170). -/
def outcome (code : Byte) (detail : Nat) : Word := code ++ BitVec.ofNat 8 detail

/-- No scan of the pool and no resumption pass would serve anyone: the service is CLOSED, or the pool's queue is empty
and no scan has stopped for want of an entry (R113, R119). -/
def NoOneServed (s : State) (pool : Nat) : Prop :=
  s.service = .closed ∨ ((s.pool pool).queue = [] ∧ s.starved = false)

/-- The end of the holding in an entry drains no feature: its feature is not RETIRING, or another counted holding of the
feature remains (R20, R70). -/
def NoDrain (s : State) (i : Nat) : Prop :=
  ∀ f, s.feature (s.holding i).feature = some f → f.state = .retiring →
    ∃ k, k ≠ i ∧ (s.holding k).state.counted = true ∧ (s.holding k).feature = (s.holding i).feature

/-- A pool whose figures have been changed, its over state recomputed against a reserve sum: it goes over exactly while
used or the reserve sum exceeds the capacity, and going from no to yes marks it with the event time unless it is marked
(R47, R48). -/
def withOver (q : Pool) (reserves evt : Nat) : Pool :=
  { q with
    isOver := decide (q.capacity < q.used ∨ q.capacity < reserves)
    overMark :=
      if (q.capacity < q.used ∨ q.capacity < reserves) ∧ q.isOver = false ∧ q.overMark = none then some evt
      else q.overMark }

/-- The allotments with the tokens of a key changed (R57, R59). -/
def postedAllotments (l : List Allotment) (project pool : Nat) (g : Nat → Nat) : List Allotment :=
  l.map (fun a => if a.project = project ∧ a.pool = pool then { a with used := g a.used } else a)

/-- A pool after a charge of `c` tokens (R57). -/
def chargedPool (q : Pool) (c reserves evt : Nat) : Pool := withOver { q with used := q.used + c } reserves evt

/-- A pool after the refund of a holding that was in a state (R59). -/
def refundedPool (q : Pool) (st : HoldingState) (tokens reserves evt : Nat) : Pool :=
  withOver
    { q with
      used := q.used - tokens
      borrowed := if st = .borrowed then q.borrowed - tokens else q.borrowed
      lingering := if st = .lingering then q.lingering - tokens else q.lingering }
    reserves evt

/-- The first bits of a byte, the most significant first (R157). -/
def firstBits (b : Byte) (n : Nat) : List Bool := ([7, 6, 5, 4, 3, 2, 1, 0].map (fun k => b.getLsbD k)).take n

/-- The drained list after a record is added (R20): where it holds 512, its first record, the oldest, is removed; the
new one stands before those of a later event time, or of its own event time and a higher code. -/
def listedWith (l : List Drained) (d : Drained) : List Drained :=
  let kept := if 512 ≤ l.length then l.tail else l
  let behind (x : Drained) : Bool :=
    decide (d.eventTime < x.eventTime ∨ (d.eventTime = x.eventTime ∧ d.feature < x.feature))
  kept.filter (fun x => !behind x) ++ d :: kept.filter behind

/-- A feature drains (R20): its code becomes FREE, its end instant is no longer lodged, and its record joins the drained
list, which keeps its older records but for the oldest of 512. Nothing else changes. -/
def Drains (s t : State) (code evt : Nat) : Prop :=
  { t with drained := s.drained } =
      { s with
        features := tableErase s.features code
        reached := s.reached.filter (fun d => !d.ofFeature code) }
  ∧ t.feature code = none ∧ (∀ k, k ≠ code → t.feature k = s.feature k)
  ∧ (∀ d ∈ t.deadlines, d.ofFeature code = false)
  ∧ { feature := code, eventTime := evt } ∈ t.drained
  ∧ (∀ d ∈ t.drained, d = { feature := code, eventTime := evt } ∨ d ∈ s.drained)
  ∧ (s.drained.length < 512 → ∀ d ∈ s.drained, d ∈ t.drained)
  ∧ (DrainedOrdered s → t.drained = listedWith s.drained { feature := code, eventTime := evt })

/-- The holding in an entry is the last counted one of a RETIRING feature (R20, R70). -/
def LastOfRetiring (s : State) (i : Nat) : Prop :=
  (∃ f, s.feature (s.holding i).feature = some f ∧ f.state = .retiring)
  ∧ ∀ k, k ≠ i → (s.holding k).state.counted = true → (s.holding k).feature ≠ (s.holding i).feature

/-- The states that REFCLK periods lead to, one after another. -/
def afterPeriods : Nat → State → Option State
  | 0, s => some s
  | n + 1, s =>
    match exec .refclkPeriod s with
    | .next t => afterPeriods n t
    | _ => none


/-! ### The words of requests -/

/-- A Checkout frame (section 10.3). -/
def checkoutFrame (tag feature user host project seats wait cls : Word) : Frame :=
  [0x0109#16, tag, feature, user, host, project, seats, wait, cls]

/-- What a Checkout asks, the class clamped to the user's highest class (R74). -/
def asked (s : State) (feature user host project seats cls : Word) : Asking :=
  { feature := feature.toNat
    user := user.toNat
    host := host.toNat
    project := project.toNat
    seats := seats.toNat
    cls := min cls.toNat (s.highestClass user.toNat) }

/-- The user's directory entry says BARRED (R22). -/
def Barred (s : State) (user : Nat) : Prop := ∃ u, s.user user = some u ∧ u.standing = .barred

/-- The feature is licensed at a site time (R75, R13). -/
def Licensed (f : Feature) (t : Nat) : Prop :=
  f.state = .active ∧ f.startDay * 86400 ≤ t ∧ ∀ d, f.endDay = some d → t < (d + 1) * 86400

/-- The fields of a Checkout are in range (R74). -/
def FieldsPass (a : Asking) : Prop := a.feature ≠ 0 ∧ a.user ≠ 0 ∧ a.host ≠ 0 ∧ 1 ≤ a.seats ∧ a.seats ≤ 16

/-- A Checkout that passes every check before the choice of its path, with the record of its feature (R74 to R76). -/
structure Admitted (s : State) (a : Asking) (f : Feature) : Prop where
  opened : s.service = .opened
  fields : FieldsPass a
  known : s.feature a.feature = some f
  licensed : Licensed f s.siteTime
  standing : ¬Barred s a.user
  project : a.project = 0 ∨ a.project ∈ s.projects
  verdict : (s.verdict f (s.ruleInputs a)).1 = true

/-- The reply to a granted Checkout (R82): the handle, the whole figures of the holding, and its deadline. -/
def grantReply (tag : Word) (code : Byte) (detail i : Nat) (h : Holding) : Frame :=
  [0x010A#16, tag, outcome code detail, wordOf i, wordOf h.gen, wordOf h.seats, wordOf h.refs, wordOf h.tokens,
    wordOf (h.deadline / 65536), wordOf h.deadline]

/-- A reply frame: kind code and length, tag, outcome word, body (R170). -/
def reply (kind : Byte) (tag : Word) (code : Byte) (detail : Nat) (body : List Word) : Frame :=
  (kind ++ BitVec.ofNat 8 (3 + body.length)) :: tag :: outcome code detail :: body

/-- The oldest frame taken and a reply without a body placed, and nothing else changed. -/
def turned (s : State) (rest : List Frame) (kind : Byte) (tag : Word) (code : Byte) (detail : Nat) :
    Host.Outcome State Fault Refusal :=
  .next (answered s rest (reply kind tag code detail []))

/-- The two words of a 32-bit value, the high word first (R170). -/
def two (n : Nat) : List Word := [BitVec.ofNat 16 (n / 65536), BitVec.ofNat 16 n]

/-- The coded value of a holding state (section 10.2). -/
def stateWord : HoldingState → Word
  | .free => 0#16
  | .live => 1#16
  | .borrowed => 2#16
  | .lingering => 3#16
  | .lapsed => 4#16

/-- The coded value of a holding's end reason (section 10.2). -/
def holdingEndWord : Option HoldingEnd → Word
  | none => 0#16
  | some .lease => 1#16
  | some .featureEnd => 2#16
  | some .borrowEnd => 3#16

/-- The coded value of a waiter's end reason (section 10.2). -/
def waiterEndNumber : Option WaiterEnd → Nat
  | none => 0
  | some .timeout => 1
  | some .expired => 2
  | some .retired => 3

/-- A holding that has left the counted states, from the entry that now stands in its place: the refund posted, the
over state recomputed, and the deadline withdrawn (R59, R65). -/
def leftCounted (s : State) (i evt : Nat) (entry : Holding) : State :=
  let h := s.holding i
  { s with
    reached := s.reached.filter (fun d => !d.ofHolding i)
    holdings := tablePut Holding.initial s.holdings i entry
    pools := tablePut Pool.initial s.pools h.pool
      (refundedPool (s.pool h.pool) h.state h.tokens (s.reserveSum h.pool) evt)
    allotments := postedAllotments s.allotments h.project h.pool (fun used => used - h.tokens) }

/-! The words of the scans. -/

/-- What a scan would charge a waiter (R114, R50, R51). -/
def scanCost (s : State) (j : Nat) (f : Feature) : Nat :=
  s.pathCost f.weight (s.waiter j).seats (s.choosePath f.sharing (s.waiter j).asking)

/-- A WAITING waiter of a pool passes the first tests of a scan (R114, R115): its feature's end instant has not come,
its path is no merge into a holding of 65535 references, and a cost above 0 fits its project's cap. -/
structure PassesTests (s : State) (p j : Nat) (f : Feature) : Prop where
  waits : (s.waiter j).state = .waiting
  known : s.feature (s.waiter j).feature = some f
  pooled : f.pool = p
  licensed : ∀ d, f.endDay = some d → s.siteTime < (d + 1) * 86400
  references : ∀ i, s.choosePath f.sharing (s.waiter j).asking = .merge i → (s.holding i).refs < 65535
  cap : ∀ a cap, scanCost s j f ≠ 0 → s.allotment (s.waiter j).project p = some a → a.cap = some cap →
    a.used + scanCost s j f ≤ cap

/-- A scan passes over the waiter (R115): site time has reached its feature's end instant, or its path is a merge into a
holding of 65535 references, or its cost is above 0 and exceeds its project's cap. -/
def PassedOver (s : State) (p j : Nat) : Prop :=
  ∃ f, (s.waiter j).state = .waiting ∧ s.feature (s.waiter j).feature = some f ∧ f.pool = p
    ∧ ((∃ d, f.endDay = some d ∧ (d + 1) * 86400 ≤ s.siteTime)
      ∨ (∃ i, s.choosePath f.sharing (s.waiter j).asking = .merge i ∧ 65535 ≤ (s.holding i).refs)
      ∨ (scanCost s j f ≠ 0 ∧ ∃ a cap, s.allotment (s.waiter j).project p = some a ∧ a.cap = some cap
          ∧ cap < a.used + scanCost s j f))

/-- A scan of the pool grants no one and sets no mark (R115, R116): it passes over every waiter, or over those ahead of
one whose cost exceeds the headroom, which holds back every waiter behind it. -/
def GrantsNoOne (s : State) (p : Nat) : Prop :=
  ∃ ahead behind, (s.pool p).queue = ahead ++ behind ∧ (∀ j ∈ ahead, PassedOver s p j)
    ∧ (behind = [] ∨ ∃ j more f, behind = j :: more ∧ PassesTests s p j f
        ∧ s.headroom p (s.waiter j).project < scanCost s j f)

/-- A scan of the pool stops for want of an entry (R116): it passes over those ahead of a waiter that passes every test,
whose path is a new holding, while no entry is FREE or LAPSED. -/
def StopsForAnEntry (s : State) (p : Nat) : Prop :=
  ∃ ahead j more f, (s.pool p).queue = ahead ++ j :: more ∧ (∀ k ∈ ahead, PassedOver s p k) ∧ PassesTests s p j f
    ∧ scanCost s j f ≤ s.headroom p (s.waiter j).project ∧ s.choosePath f.sharing (s.waiter j).asking = .fresh
    ∧ s.allocate = none

/-- A scan of the pool serves its last waiter alone (R113 to R117): the pool is not over, those ahead are passed over,
and the waiter passes every test and has a new holding in an entry, with a lease that ends ahead of site time. -/
structure Serves (s : State) (p j k : Nat) (f : Feature) : Prop where
  notOver : (s.pool p).isOver = false
  queued : ∃ ahead, (s.pool p).queue = ahead ++ [j] ∧ ∀ m ∈ ahead, PassedOver s p m
  tests : PassesTests s p j f
  afforded : scanCost s j f ≤ s.headroom p (s.waiter j).project
  fresh : s.choosePath f.sharing (s.waiter j).asking = .fresh
  entry : s.allocate = some k
  lease : s.siteTime < f.clamp (s.siteTime + f.lease)

/-- A waiter granted a new holding by a scan (R117, R118, R79, R57): the entry is LIVE with the waiter's fields, its
lease counted from site time; pool and allotment are charged and the over state recomputed; the waiter leaves its queue
and is GRANTED with the holding's handle and the event time of the scan. -/
def granted (s : State) (p j k : Nat) (f : Feature) (evt : Nat) : State :=
  let w := s.waiter j
  let cost := f.weight * w.seats
  let old := s.holding k
  let made : Holding :=
    { gen := if old.state = .lapsed then nextGen old.gen else old.gen, state := .live, feature := w.feature,
      pool := p, user := w.user, host := w.host, project := w.project, seats := w.seats, refs := 1, tokens := cost,
      deadline := f.clamp (s.siteTime + f.lease), endReason := none, eventTime := 0 }
  { s with
    reached := s.reached.filter (fun d => !d.ofHolding k && !d.ofWaiter j)
    holdings := tablePut Holding.initial s.holdings k made
    waiters := tablePut Waiter.initial s.waiters j
      { w with state := .granted, deadline := 0, handleIndex := k, handleGen := made.gen, merged := false,
               eventTime := evt }
    pools := tablePut Pool.initial s.pools p
      { chargedPool (s.pool p) cost (s.reserveSum p) evt with queue := (s.pool p).queue.filter (fun m => m != j) }
    allotments := postedAllotments s.allotments w.project p (fun used => used + cost) }

/-- A waiter granted by a merge or a reattach in a scan (R117, R118, R80, R81, R57): the LIVE holding gains a reference,
or the LINGERING one is LIVE again with one and leaves the lingering figure; seats rise to those of the waiter, and the
weight of each seat added is charged, or nothing where none is; the lease is counted from site time; the waiter leaves
its queue and is GRANTED with the holding's handle, its merged flag set, and the event time of the scan. -/
def joined (s : State) (p j i : Nat) (f : Feature) (evt : Nat) : State :=
  let w := s.waiter j
  let h := s.holding i
  let q := s.pool p
  let cost := f.weight * (w.seats - h.seats)
  let made : Holding :=
    { h with
      state := .live
      refs := if h.state = .lingering then 1 else h.refs + 1
      seats := max h.seats w.seats
      tokens := h.tokens + cost
      deadline := f.clamp (s.siteTime + f.lease) }
  let taken : Pool := if h.state = .lingering then { q with lingering := q.lingering - h.tokens } else q
  let paid : Pool := if cost = 0 then taken else chargedPool taken cost (s.reserveSum p) evt
  { s with
    reached := s.reached.filter (fun d => !d.ofHolding i && !d.ofWaiter j)
    holdings := tablePut Holding.initial s.holdings i made
    waiters := tablePut Waiter.initial s.waiters j
      { w with state := .granted, deadline := 0, handleIndex := i, handleGen := h.gen, merged := true,
               eventTime := evt }
    pools := tablePut Pool.initial s.pools p { paid with queue := q.queue.filter (fun m => m != j) }
    allotments :=
      if cost = 0 then s.allotments
      else postedAllotments s.allotments h.project p (fun used => used + cost) }

/-- What the waiters of a queue, visited one after another by a scan of the pool, lead to (R114 to R117): each is judged
by the figures as those before it have left them. It is passed over, or holds back all behind it, or stops the scan for
want of an entry, or is granted a new holding, a merge or a reattach, whose lease ends ahead of site time. -/
inductive Scans (p evt : Nat) : List Nat → State → State → Prop where
  | finished (s : State) : Scans p evt [] s s
  | passesOver {j : Nat} {more : List Nat} {s t : State} :
      PassedOver s p j → Scans p evt more s t → Scans p evt (j :: more) s t
  | heldBack {j : Nat} {more : List Nat} {s : State} {f : Feature} :
      PassesTests s p j f → s.headroom p (s.waiter j).project < scanCost s j f → Scans p evt (j :: more) s s
  | starves {j : Nat} {more : List Nat} {s : State} {f : Feature} :
      PassesTests s p j f → scanCost s j f ≤ s.headroom p (s.waiter j).project →
      s.choosePath f.sharing (s.waiter j).asking = .fresh → s.allocate = none →
      Scans p evt (j :: more) s { s with starved := true }
  | makes {j k : Nat} {more : List Nat} {s t : State} {f : Feature} :
      PassesTests s p j f → scanCost s j f ≤ s.headroom p (s.waiter j).project →
      s.choosePath f.sharing (s.waiter j).asking = .fresh → s.allocate = some k →
      s.siteTime < f.clamp (s.siteTime + f.lease) → Scans p evt more (granted s p j k f evt) t →
      Scans p evt (j :: more) s t
  | merges {j i : Nat} {more : List Nat} {s t : State} {f : Feature} :
      PassesTests s p j f → scanCost s j f ≤ s.headroom p (s.waiter j).project →
      s.choosePath f.sharing (s.waiter j).asking = .merge i → (s.holding i).state = .live → (s.holding i).pool = p →
      s.siteTime < f.clamp (s.siteTime + f.lease) → Scans p evt more (joined s p j i f evt) t →
      Scans p evt (j :: more) s t
  | reattaches {j i : Nat} {more : List Nat} {s t : State} {f : Feature} :
      PassesTests s p j f → scanCost s j f ≤ s.headroom p (s.waiter j).project →
      s.choosePath f.sharing (s.waiter j).asking = .reattach i → (s.holding i).state = .lingering →
      (s.holding i).pool = p → s.siteTime < f.clamp (s.siteTime + f.lease) →
      Scans p evt more (joined s p j i f evt) t → Scans p evt (j :: more) s t

/-- A scan serves the one waiter of a pool with a lease that is reached at once (R113 to R117, R142): the waiter, of an
ACTIVE feature, passes every test and has a new holding in an entry, and its lease does not end ahead of site time. -/
structure ServesAtOnce (s : State) (p j k : Nat) (f : Feature) : Prop where
  queued : (s.pool p).queue = [j]
  active : f.state = .active
  tests : PassesTests s p j f
  afforded : scanCost s j f ≤ s.headroom p (s.waiter j).project
  fresh : s.choosePath f.sharing (s.waiter j).asking = .fresh
  entry : s.allocate = some k
  lease : f.clamp (s.siteTime + f.lease) ≤ s.siteTime

/-- What such a grant leads to once its lease, reached at once, is handled (R132, R142, R87, R59): the waiter is
GRANTED, and the holding has lapsed with reason LEASE and its deadline as event time, its tokens refunded. -/
def grantedAndLapsed (s : State) (p j k : Nat) (f : Feature) (evt : Nat) : State :=
  let g := granted s p j k f evt
  let lease := f.clamp (s.siteTime + f.lease)
  leftCounted g k lease
    { g.holding k with state := .lapsed, refs := 0, deadline := 0, endReason := some .lease, eventTime := lease }

/-- What a scan that is asked for of a pool leads to (R113): it runs while the service is OPEN and the pool is not over,
and otherwise nothing comes about. A holding that it makes and whose lease is reached at once lapses (R132, R142); that
it does so as soon as the scan is complete is the model's reading (assumption 22). -/
def Scanned (s : State) (p evt : Nat) (t : State) : Prop :=
  (s.service = .opened → (s.pool p).isOver = false →
    Scans p evt (s.pool p).queue s t ∨ ∃ j k f, ServesAtOnce s p j k f ∧ t = grantedAndLapsed s p j k f evt)
  ∧ ((s.service = .closed ∨ (s.pool p).isOver = true) → t = s)

/-- What a pass leads to (R119): the entry-starved mark is cleared, and the pools are scanned one after another in
ascending number from 0 to 63. A later pool's scan can reach a LAPSED entry that a grant in an earlier pool has made
(R119); that the holdings which a scan makes, and whose leases are reached at once, lapse between that scan and the next
is the model's reading (assumption 22). -/
def PassMade (s : State) (evt : Nat) (t : State) : Prop :=
  ∃ u : Nat → State, u 0 = { s with starved := false } ∧ u 64 = t ∧ ∀ p, p < 64 → Scanned (u p) p evt (u (p + 1))

/-- What follows the freeing of a holding of a pool (R113, R119): the resumption pass where the entry-starved mark is
set and the service is OPEN, and otherwise the scan of the pool. -/
def FreedScanned (s : State) (p evt : Nat) (t : State) : Prop :=
  (s.starved = true → s.service = .opened → PassMade s evt t)
  ∧ ((s.starved = false ∨ s.service = .closed) → Scanned s p evt t)

/-- The command that takes a reached deadline (R133). -/
def deadlineCommand (d : Deadline) : Instr :=
  match d.kind with
  | .leaseExpiry => .leaseExpiry d.record
  | .lingerEnd => .lingerEnd d.record
  | .borrowEnd => .borrowEnd d.record
  | .waitDeadline => .waitDeadline d.record
  | .featureEnd => .featureEndInstant d.record

/-- The number of holdings of a feature in a state, counted entry by entry (R70). -/
def countHoldings (s : State) (feature : Nat) (st : HoldingState) : Nat :=
  ((List.range 8192).filter (fun i => decide ((s.holding i).state = st ∧ (s.holding i).feature = feature))).length

/-- The number of WAITING waiters of a feature, counted entry by entry (R21). -/
def countWaiters (s : State) (feature : Nat) : Nat :=
  ((List.range 256).filter (fun j => decide ((s.waiter j).state = .waiting ∧ (s.waiter j).feature = feature))).length

/-! The words of Define Feature, Write Terms and the rule chains. -/

/-- The words of a Define Feature frame from word 2 on (section 10.3). -/
structure FeatureWords where
  code : Word
  pool : Word
  weight : Word
  sharing : Word
  startDay : Word
  endDay : Word
  leaseHi : Word
  leaseLo : Word
  linger : Word
  borrowMax : Word
  chainFlag : Word
  chain : Word

/-- The Define Feature frame of its words (section 10.3). -/
def FeatureWords.frame (x : FeatureWords) (tag : Word) : Frame :=
  [0x280E#16, tag, x.code, x.pool, x.weight, x.sharing, x.startDay, x.endDay, x.leaseHi, x.leaseLo, x.linger,
    x.borrowMax, x.chainFlag, x.chain]

/-- A word of a Define Feature frame holds a failing field (R14, R171). -/
def FeatureWords.fails (x : FeatureWords) (n : Nat) : Prop :=
  (n = 2 ∧ x.code.toNat = 0) ∨ (n = 3 ∧ 63 < x.pool.toNat)
  ∨ (n = 4 ∧ (x.weight.toNat = 0 ∨ 255 < x.weight.toNat)) ∨ (n = 5 ∧ 2 < x.sharing.toNat)
  ∨ (n = 6 ∧ 49709 < x.startDay.toNat)
  ∨ (n = 7 ∧ x.endDay.toNat ≠ 65535 ∧ (49710 ≤ x.endDay.toNat ∨ x.endDay.toNat < x.startDay.toNat))
  ∨ (n = 8 ∧ (value32 x.leaseHi x.leaseLo < 60 ∨ 86400 < value32 x.leaseHi x.leaseLo))
  ∨ (n = 10 ∧ 3600 < x.linger.toNat) ∨ (n = 11 ∧ 30 < x.borrowMax.toNat) ∨ (n = 12 ∧ 1 < x.chainFlag.toNat)
  ∨ (n = 13 ∧ x.chainFlag.toNat = 1 ∧ 2047 < x.chain.toNat)

/-- The ACTIVE record that the words make, with its end instant lodged or not (R13, R15, R136). -/
def FeatureWords.record (x : FeatureWords) (lodged : Bool) : Feature :=
  { state := .active
    pool := x.pool.toNat
    weight := x.weight.toNat
    sharing := if x.sharing.toNat = 0 then .separate else if x.sharing.toNat = 1 then .user else .station
    startDay := x.startDay.toNat
    endDay := if x.endDay.toNat = 65535 then none else some x.endDay.toNat
    lease := value32 x.leaseHi x.leaseLo
    linger := x.linger.toNat
    borrowMax := x.borrowMax.toNat
    chain := if x.chainFlag.toNat = 1 then some x.chain.toNat else none
    endLodged := lodged }

/-- The offset of the first bad slot of the chain that the words name; none where they name none (R38, R40). -/
def FeatureWords.badOffset (x : FeatureWords) (s : State) : Option Nat :=
  if x.chainFlag.toNat = 1 then s.chainFault x.chain.toNat else none

/-- The feature has a holding in a counted state (R16). -/
def Held (s : State) (code : Nat) : Prop := ∃ i, (s.holding i).state.counted = true ∧ (s.holding i).feature = code

/-- The feature has a WAITING waiter (R16). -/
def Waited (s : State) (code : Nat) : Prop := ∃ j, (s.waiter j).state = .waiting ∧ (s.waiter j).feature = code

/-- The first word of a slot is badly coded (R173): kind 00b or 11b, or a term with combine 4 to 7 or predicate 8 to
15. -/
abbrev badlyCoded (w : Word) : Prop :=
  (w.toNat / 16384 ≠ 1 ∧ w.toNat / 16384 ≠ 2)
  ∨ (w.toNat / 16384 = 1 ∧ (4 ≤ w.toNat / 2048 % 8 ∨ 8 ≤ w.toNat % 16))

/-- The slot that two well-coded words mean (section 10.4): bits 15 and 14 the kind, 13 to 11 the combine, 10 negate, 9
last, 3 to 0 the predicate; the other bits are not kept. -/
def slotMeant (w operand : Word) : Slot :=
  if w.toNat / 16384 = 2 then .extension operand
  else
    .term (([Combine.set, Combine.and, Combine.or, Combine.xor])[w.toNat / 2048 % 8]?.getD .set)
      (decide (w.toNat / 1024 % 2 = 1)) (decide (w.toNat / 512 % 2 = 1))
      (([Predicate.group, Predicate.hostClass, Predicate.project, Predicate.seats, Predicate.hours, Predicate.days,
        Predicate.userCap, Predicate.hosts])[w.toNat % 16]?.getD .group)
      operand

/-- A Write Terms frame of a run of slots, two words to a slot (R173). -/
def termsFrame (tag first : Word) (slots : List (Word × Word)) : Frame :=
  BitVec.ofNat 16 (0x2B00 + 3 + 2 * slots.length) :: tag :: first :: slots.flatMap (fun p => [p.1, p.2])

/-- A slot is in use (R41): it lies in the chain of an ACTIVE or RETIRING feature. -/
def InUse (s : State) (k : Nat) : Prop :=
  ∃ code f start, s.feature code = some f ∧ f.chain = some start ∧ start ≤ k ∧ k < start + s.chainLength start

/-! The words of the verdict and of the form of a chain. -/

/-- The seats that a user holds of a feature, counted entry by entry over LIVE, BORROWED and LINGERING (R33). -/
def seatsHeld (s : State) (feature user : Nat) : Nat :=
  (((List.range 8192).filter (fun i =>
    decide ((s.holding i).state.counted = true ∧ (s.holding i).feature = feature ∧ (s.holding i).user = user))).map
      (fun i => (s.holding i).seats)).sum

/-- A predicate is true for a Checkout, `next` being the slot after its term (R28 to R34, R130). -/
def PredicateTrue (s : State) (a : Asking) (p : Predicate) (operand : Word) (next : Slot) : Prop :=
  let n := operand.toNat
  let first := n / 256
  let second := n % 256
  let hour := s.siteTime % 86400 / 3600
  match p with
  | .group => n < 16 ∧ ∃ u, s.user a.user = some u ∧ u.groups.getLsbD n = true
  | .hostClass => (tableFind s.hosts a.host).getD 0 = n
  | .project => a.project = n
  | .seats => a.seats ≤ n
  | .hours => (first < second ∧ first ≤ hour ∧ hour < second) ∨ (second < first ∧ (first ≤ hour ∨ hour < second))
  | .days => operand.getLsbD (s.siteTime / 86400 % 7) = true
  | .userCap => seatsHeld s a.feature a.user + a.seats ≤ n
  | .hosts => n ≤ a.host ∧ ∃ hi, next = .extension hi ∧ a.host ≤ hi.toNat

/-- The verdict of the chain at a start after its first slots, as many as the number says (R35): false before the
first, an extension passed over, and each term's value, inverted where it is marked negate, joined by its combine. -/
def VerdictAfter (s : State) (a : Asking) (start : Nat) : Nat → Prop
  | 0 => False
  | n + 1 =>
    match s.slot (start + n) with
    | .extension _ => VerdictAfter s a start n
    | .term c negate _ p operand =>
      let value := PredicateTrue s a p operand (s.slot (start + n + 1)) ↔ negate = false
      match c with
      | .set => value
      | .and => VerdictAfter s a start n ∧ value
      | .or => VerdictAfter s a start n ∨ value
      | .xor => ¬(VerdictAfter s a start n ↔ value)

/-- The verdict takes the value false after the term of an offset, having been true before that term, or the term being
the first (R36). -/
def TakesFalse (s : State) (a : Asking) (start d : Nat) : Prop :=
  (∃ c negate last p operand, s.slot (start + d) = .term c negate last p operand)
  ∧ ¬VerdictAfter s a start (d + 1) ∧ (VerdictAfter s a start d ∨ d = 0)

/-- An operand lies in the range of its predicate (R39). -/
def InRange (p : Predicate) (operand : Word) : Prop :=
  match p with
  | .group => operand.toNat ≤ 15
  | .hostClass => operand.toNat ≤ 15
  | .project => True
  | .seats => 1 ≤ operand.toNat ∧ operand.toNat ≤ 16
  | .hours => operand.toNat / 256 ≤ 24 ∧ operand.toNat % 256 ≤ 24
  | .days => operand.toNat ≤ 127
  | .userCap => 1 ≤ operand.toNat ∧ operand.toNat ≤ 255
  | .hosts => True

/-- The slot at an offset stands just after a HOSTS term, whose operand is `lo` (R38). -/
def AfterHosts (s : State) (start : Nat) (k : Nat) (lo : Word) : Prop :=
  ∃ m c negate last, k = m + 1 ∧ s.slot (start + m) = .term c negate last .hosts lo

/-- The slot at an offset is not bad (R38, R39): an extension not below lo just after a HOSTS term, and elsewhere a term
with its operand in range, at offset 0 one with combine SET. -/
def GoodSlot (s : State) (start k : Nat) : Prop :=
  (∀ lo, AfterHosts s start k lo → ∃ hi, s.slot (start + k) = .extension hi ∧ lo.toNat ≤ hi.toNat)
  ∧ ((∀ lo, ¬AfterHosts s start k lo) →
      ∃ c negate last p operand, s.slot (start + k) = .term c negate last p operand ∧ InRange p operand
        ∧ (k = 0 → c = .set))

/-- The chain ends at an offset (R27): a term marked last whose predicate is not HOSTS, or the extension of a HOSTS term
marked last. -/
def EndsAt (s : State) (start k : Nat) : Prop :=
  (∃ c negate p operand, s.slot (start + k) = .term c negate true p operand ∧ p ≠ .hosts)
  ∨ ∃ m c negate lo hi, k = m + 1 ∧ s.slot (start + m) = .term c negate true .hosts lo
      ∧ s.slot (start + k) = .extension hi

/-- A well-formed chain of `n` slots stands at a start (R27, R38). -/
def WellFormedChain (s : State) (start n : Nat) : Prop :=
  1 ≤ n ∧ n ≤ 16 ∧ start + n ≤ 2048 ∧ (∀ k, k < n → GoodSlot s start k) ∧ EndsAt s start (n - 1)
  ∧ ∀ k, k + 1 < n → ¬EndsAt s start k

/-- The first bad offset of the chain at a start (R38): every slot before it is good and none ends the chain, and it is
offset 16, lies beyond slot 2047, or holds a bad slot. -/
def FirstBad (s : State) (start d : Nat) : Prop :=
  d ≤ 16 ∧ (∀ k, k < d → start + k < 2048 ∧ GoodSlot s start k ∧ ¬EndsAt s start k)
  ∧ (d = 16 ∨ 2048 ≤ start + d ∨ ¬GoodSlot s start d)

end Sys2Proof.Claims

open Sys2Proof Sys2Proof.Machine Sys2Proof.Claims

/-! ### The step, the lines and the link -/

/-- A step takes the command in front and carries it out with the queue's rest; on an empty queue the part idles, which
is the model's choice (assumption 11). -/
def Obligations.StepTakesTheCommandInFront : Prop :=
  (∀ (s : State) (c : Instr) (rest : List Instr), s.pending = c :: rest → step s = exec c { s with pending := rest })
  ∧ ∀ s : State, s.pending = [] → step s = .next s

/-- Device reset leaves each block in the state its chapter gives: the service CLOSED, every table and collection
empty, every pool at 0 and not over, every slot the reset term, every entry FREE with generation 1, the clock UNSET at
0, the notice levels and enables of R144, and the link empty with both flags clear, RDY asserted and ATTN deasserted. -/
def Obligations.ResetStateHoldsTheStatedValues : Prop :=
  let s := State.reset
  s.service = .closed ∧ (∀ code, s.feature code = none) ∧ s.projects = [] ∧ s.allotments = []
  ∧ (∀ p, s.pool p =
      { capacity := 0, borrowCap := 0, used := 0, borrowed := 0, lingering := 0, isOver := false, overMark := none,
        queue := [] })
  ∧ (∀ code, s.user code = none) ∧ (∀ code, tableFind s.hosts code = none) ∧ s.drained = []
  ∧ (∀ k, s.slot k = .term .set false false .group 0#16) ∧ s.starved = false
  ∧ (∀ i, (s.holding i).state = .free ∧ (s.holding i).gen = 1)
  ∧ (∀ j, (s.waiter j).state = .free ∧ (s.waiter j).gen = 1)
  ∧ s.siteTime = 0 ∧ s.timeState = .unset ∧ s.divider = 0 ∧ s.deadlines = []
  ∧ s.notices.grant = ⟨2, true⟩ ∧ s.notices.waitEnd = ⟨1, true⟩ ∧ s.notices.lapse = ⟨1, true⟩
  ∧ s.notices.poolOver = ⟨3, true⟩ ∧ s.notices.drained = ⟨0, true⟩
  ∧ s.fifo = [] ∧ s.replies = [] ∧ s.overrun = false ∧ s.framing = false ∧ s.rdy = true ∧ s.attn = false

/-- Asserting RESETn puts every block in its device-reset state; releasing it leaves that state with RESETn released;
an ADMEN change sets the level and nothing else; and while RESETn is asserted no transaction, request, period or
deadline changes anything (R157, R168, R169). That reset keeps the ADMEN level, which is an input, that what the host
last read on SDO is empty after it, that the lines alone act while RESETn is asserted, and the choice counter are the
model's (assumptions 1, 3, 9, 19). -/
def Obligations.LinesActOnTheWholePart : Prop :=
  (∀ s : State, exec .deviceReset s =
    .next { State.reset with resetLow := true, admen := s.admen, pending := s.pending, choices := s.choices })
  ∧ (∀ s : State, s.resetLow = true → exec .resetRelease s =
      .next { State.reset with resetLow := false, admen := s.admen, pending := s.pending, choices := s.choices })
  ∧ (∀ s : State, s.resetLow = false → exec .resetRelease s = .next s)
  ∧ (∀ (s : State) (level : Bool), exec (.admenChange level) s = .next { s with admen := level })
  ∧ ∀ (i : Instr) (s : State), s.resetLow = true → i ≠ .deviceReset → i ≠ .resetRelease →
      (∀ level, i ≠ .admenChange level) → exec i s = .next s

/-- A Write Frame transaction (R159, R160). With 16 frames in the FIFO: overrun, and no framing fault. With room: a
transaction that ends within the first word, a length below 2 or above 40, or fewer bytes than the length asks for
sets the framing flag; a complete frame joins the FIFO behind every frame there, whatever follows it, a part of a byte
too. SDO carries the status byte and then 00h. -/
def Obligations.WriteFrameJoinsTheFifoOrSetsAFlag : Prop :=
  ∀ (s : State) (sdi : List Byte) (cut : Fin 8), s.resetLow = false →
    let sent := s.statusByte :: List.replicate sdi.length 0#8
    let bits := List.replicate cut.val false
    (16 ≤ s.fifo.length →
      exec (.writeFrame ⟨sdi, cut⟩) s = .next { s with overrun := true, sdo := sent, sdoBits := bits })
    ∧ (s.fifo.length < 16 → sdi.length < 2 →
      exec (.writeFrame ⟨sdi, cut⟩) s = .next { s with framing := true, sdo := sent, sdoBits := bits })
    ∧ (∀ hi lo more, s.fifo.length < 16 → sdi = hi :: lo :: more →
        (lo.toNat < 2 ∨ 40 < lo.toNat ∨ sdi.length < 2 * lo.toNat) →
        exec (.writeFrame ⟨sdi, cut⟩) s = .next { s with framing := true, sdo := sent, sdoBits := bits })
    ∧ (∀ (f : Frame) (more : List Byte), s.fifo.length < 16 → sdi = bytesOf f ++ more → 2 ≤ f.length →
        f.length ≤ 40 → lengthOf (f.getD 0 0#16) = f.length →
        exec (.writeFrame ⟨sdi, cut⟩) s = .next { s with fifo := s.fifo ++ [f], sdo := sent, sdoBits := bits })

/-- A Read Frame transaction (R161, R162): the oldest reply leaves the queue and is shifted out behind the status byte
for as long as the host clocks, to the bit, 00h after its end; on an empty queue an EMPTY frame is sent and nothing else
changes. -/
def Obligations.ReadFrameShiftsOutTheOldestReply : Prop :=
  ∀ (s : State) (clocked : Nat) (cut : Fin 8), s.resetLow = false →
    (∀ (r : Frame) (rest : List Frame), s.replies = r :: rest → exec (.readFrame ⟨clocked, cut⟩) s =
      .next { s with
        replies := rest
        sdo := s.statusByte :: ((bytesOf r ++ List.replicate clocked 0#8).take clocked)
        sdoBits := firstBits ((bytesOf r).getD clocked 0#8) cut })
    ∧ (s.replies = [] →
      let empty : List Byte := [0x00#8, 0x03#8, 0#8, 0#8, 0#8, 0#8]
      exec (.readFrame ⟨clocked, cut⟩) s =
        .next { s with
          sdo := s.statusByte :: ((empty ++ List.replicate clocked 0#8).take clocked)
          sdoBits := firstBits (empty.getD clocked 0#8) cut })

/-- A Read Status transaction sends the status byte twice, then 00h, and clears both flags; the byte carries ROOM,
REPLY, ATTN, OVERRUN, FRAMING and ADMEN in bits 7 to 2 and 0 in bits 1 and 0, ATTN being that some enabled notice kind
has a pending record (R163, R174, R145, R165). A transaction of an unknown command byte sets the framing flag and sends
00h after the status byte; one cut short within its command byte sets the framing flag, and the host has read only the
first bits of the status byte (R164, R157). -/
def Obligations.StatusAndUnknownTransactions : Prop :=
  ∀ s : State, s.resetLow = false →
    (∀ (clocked : Nat) (cut : Fin 8), exec (.readStatus ⟨clocked, cut⟩) s =
      .next { s with
        overrun := false
        framing := false
        sdo := s.statusByte :: ((s.statusByte :: List.replicate clocked 0#8).take clocked)
        sdoBits := firstBits (if clocked = 0 then s.statusByte else 0#8) cut })
    ∧ (s.statusByte.getLsbD 7 = true ↔ s.fifo.length < 16)
    ∧ (s.statusByte.getLsbD 6 = true ↔ s.replies ≠ [])
    ∧ (s.statusByte.getLsbD 5 = true ↔ ∃ k : NoticeKind, (s.notices.of k).enable = true ∧ s.records k ≠ [])
    ∧ s.statusByte.getLsbD 4 = s.overrun ∧ s.statusByte.getLsbD 3 = s.framing ∧ s.statusByte.getLsbD 2 = s.admen
    ∧ s.statusByte.getLsbD 1 = false ∧ s.statusByte.getLsbD 0 = false
    ∧ (∀ (b : Byte) (sdi : List Byte) (cut : Fin 8), b ≠ 1#8 → b ≠ 2#8 → b ≠ 3#8 →
        exec (.badCommandByte (some b) ⟨sdi, cut⟩) s =
          .next { s with
            framing := true
            sdo := s.statusByte :: List.replicate sdi.length 0#8
            sdoBits := List.replicate cut.val false })
    ∧ ∀ (sdi : List Byte) (cut : Fin 8), exec (.badCommandByte none ⟨sdi, cut⟩) s =
        .next { s with framing := true, sdo := [], sdoBits := firstBits s.statusByte cut }

/-! ### The count of site time and its deadlines -/

/-- REFCLK and the advance of site time (R129, R132). UNSET: no count. SET: a period raises the divider by 1, and the
one that would take it past 32767 advances site time. An advance restarts the divider at 0, adds one second and reaches
the deadlines equal to the new second; at the top of the count it changes the divider only. A deadline reached before,
of any kind, that still waits is first handled as its own command would handle it, while site time stands at its second:
a lease expiry lapses its holding, and its scan's leases count from that second. That reached deadlines wait in
`reached`, each for its own command, is the model's choice (assumption 8), and so is that SITE_TIME_ADVANCE stands
for the 32768 less the divider periods left of the second: they bring about exactly one, and fewer only raise the
divider (assumption 7). -/
def Obligations.SiteTimeCountsFromRefclk : Prop :=
  ∀ s : State, s.resetLow = false →
    (s.timeState = .unset → exec .refclkPeriod s = .next s ∧ exec .siteTimeAdvance s = .next s)
    ∧ (s.timeState = .set → s.divider < 32767 → exec .refclkPeriod s = .next { s with divider := s.divider + 1 })
    ∧ (s.timeState = .set → 32767 ≤ s.divider → exec .refclkPeriod s = exec .siteTimeAdvance s)
    ∧ (s.timeState = .set → s.siteTime < 4294967295 → s.reached = [] → s.atOnce = [] →
        exec .siteTimeAdvance s =
          .next { s with
            divider := 0
            siteTime := s.siteTime + 1
            reached := s.deadlines.filter (fun d => d.second == s.siteTime + 1) })
    ∧ (s.timeState = .set → s.siteTime < 4294967295 → s.atOnce = [] → TablesOk s →
        let turned (u : State) : State :=
          { u with
            divider := 0
            siteTime := s.siteTime + 1
            reached := u.deadlines.filter (fun d => d.second == s.siteTime + 1) }
        (∀ d u, TimelyOk s → s.reached = [d] → exec (deadlineCommand d) s = .next u →
          exec .siteTimeAdvance s = .next (turned u))
        ∧ ∀ i sec u,
            let h := s.holding i
            let reason : HoldingEnd :=
              if (s.feature h.feature).bind Feature.endInstant = some sec then .featureEnd else .lease
            s.reached = [⟨sec, .leaseExpiry, i⟩] → h.state = .live → NoDrain s i →
            Scanned
              (leftCounted s i sec
                { h with state := .lapsed, refs := 0, deadline := 0, endReason := some reason, eventTime := sec })
              h.pool sec u →
            exec .siteTimeAdvance s = .next (turned u))
    ∧ (s.timeState = .set → s.siteTime = 4294967295 → exec .siteTimeAdvance s = .next { s with divider := 0 })
    ∧ (s.timeState = .set → s.divider ≤ 32767 →
        (∀ n, s.divider + n ≤ 32767 → afterPeriods n s = some { s with divider := s.divider + n })
        ∧ ∃ t, exec .siteTimeAdvance s = .next t ∧ afterPeriods (32768 - s.divider) s = some t)

/-! ### Deadlines that an advance reached -/

/-- A lease expiry and a borrow end lapse their holding (R87, R100): the entry keeps its record as LAPSED, with no
references, no deadline, its end reason and the deadline as event time; its tokens are refunded from the pool and from
its allotment, and the over state is recomputed (R59, R47). Reason END is for a lease expiry at the feature's end
instant only. Then a scan of the holding's pool runs, with the deadline as event time (R113, R118). Nothing else changes
where no feature drains. -/
def Obligations.LeaseExpiryAndBorrowEndLapseTheHolding : Prop :=
  ∀ (s : State) (i sec : Nat), TablesOk s → s.atOnce = [] →
    let h := s.holding i
    let reason : HoldingEnd := if (s.feature h.feature).bind Feature.endInstant = some sec then .featureEnd else .lease
    let lapsed (st : HoldingState) (reason : HoldingEnd) : State :=
      { s with
        reached := s.reached.filter (fun d => !d.ofHolding i)
        holdings := tablePut Holding.initial s.holdings i
          { h with state := .lapsed, refs := 0, deadline := 0, endReason := some reason, eventTime := sec }
        pools := tablePut Pool.initial s.pools h.pool
          (refundedPool (s.pool h.pool) st h.tokens (s.reserveSum h.pool) sec)
        allotments := postedAllotments s.allotments h.project h.pool (fun used => used - h.tokens) }
    NoDrain s i →
      (h.state = .live → s.reachedOf .leaseExpiry i = some ⟨sec, .leaseExpiry, i⟩ →
        (NoOneServed s h.pool → exec (.leaseExpiry i) s = .next (lapsed .live reason))
        ∧ ∀ t, Scanned (lapsed .live reason) h.pool sec t → exec (.leaseExpiry i) s = .next t)
      ∧ (h.state = .borrowed → s.reachedOf .borrowEnd i = some ⟨sec, .borrowEnd, i⟩ →
        (NoOneServed s h.pool → exec (.borrowEnd i) s = .next (lapsed .borrowed .borrowEnd))
        ∧ ∀ t, Scanned (lapsed .borrowed .borrowEnd) h.pool sec t → exec (.borrowEnd i) s = .next t)

/-- A linger end frees its entry (R86, R73): the record is cleared and the generation advances, no LAPSE record is made,
and the tokens are refunded from used, lingering and the allotment (R59). Then the scan of the pool runs, or the
resumption pass where the entry-starved mark is set (R113, R119). Nothing else changes where no feature drains. That a
holding granted by a pass, its lease reached at once, lapses between the scans of the pass is the model's reading
(assumption 22). -/
def Obligations.LingerEndFreesTheEntry : Prop :=
  ∀ (s : State) (i sec : Nat), TablesOk s → s.atOnce = [] →
    let h := s.holding i
    let freed : State :=
      { s with
        reached := s.reached.filter (fun d => !d.ofHolding i)
        holdings := tablePut Holding.initial s.holdings i (Holding.freeEntry (nextGen h.gen))
        pools := tablePut Pool.initial s.pools h.pool
          (refundedPool (s.pool h.pool) .lingering h.tokens (s.reserveSum h.pool) sec)
        allotments := postedAllotments s.allotments h.project h.pool (fun used => used - h.tokens) }
    NoDrain s i → h.state = .lingering → s.reachedOf .lingerEnd i = some ⟨sec, .lingerEnd, i⟩ →
      (NoOneServed s h.pool → exec (.lingerEnd i) s = .next freed)
      ∧ ∀ t, FreedScanned freed h.pool sec t → exec (.lingerEnd i) s = .next t

/-- The last counted holding of a RETIRING feature drains it, whichever way it ends (R70, R20): by lease expiry, borrow
end, linger end, Release or Return. Beside what that end does, the code becomes FREE, its end instant is no longer
lodged, and a drained-feature record, with the deadline or the request's site time as event time, joins the drained
list, whose older records stay but for the oldest of 512. Nothing else changes where no waiter is served. -/
def Obligations.LastHoldingDrainsTheRetiringFeature : Prop :=
  ∀ (s : State) (i : Nat), TablesOk s → s.atOnce = [] → LastOfRetiring s i →
    let h := s.holding i
    let lapsed (reason : HoldingEnd) (sec : Nat) : Holding :=
      { h with state := .lapsed, refs := 0, deadline := 0, endReason := some reason, eventTime := sec }
    let freed := Holding.freeEntry (nextGen h.gen)
    let drains (c : Instr) (base : State) (evt : Nat) (entry : Holding) : Prop :=
      ∃ t, exec c s = .next t ∧ Drains (leftCounted base i evt entry) t h.feature evt
    NoOneServed s h.pool →
    (∀ sec,
      (h.state = .live → s.reachedOf .leaseExpiry i = some ⟨sec, .leaseExpiry, i⟩ →
        let reason : HoldingEnd :=
          if (s.feature h.feature).bind Feature.endInstant = some sec then .featureEnd else .lease
        drains (.leaseExpiry i) s sec (lapsed reason sec))
      ∧ (h.state = .borrowed → s.reachedOf .borrowEnd i = some ⟨sec, .borrowEnd, i⟩ →
        drains (.borrowEnd i) s sec (lapsed .borrowEnd sec))
      ∧ (h.state = .lingering → s.reachedOf .lingerEnd i = some ⟨sec, .lingerEnd, i⟩ →
        drains (.lingerEnd i) s sec freed))
    ∧ ∀ (rest : List Frame) (tag index gen : Word), index.toNat = i → i < 8192 → h.gen = gen.toNat →
      (∀ flag : Word, Taking s [0x0305#16, tag, index, gen, flag] rest → h.state = .live → h.refs = 1 →
        (flag = 1#16 ∨ (flag = 0#16 ∧ ∀ f, s.feature h.feature = some f → f.linger = 0)) →
        drains .release (answered s rest (reply 0x03#8 tag 0x00#8 2 [0#16, 0#16, 0#16])) s.siteTime freed)
      ∧ (Taking s [0x0504#16, tag, index, gen] rest → h.state = .borrowed →
        drains .giveBack (answered s rest (reply 0x05#8 tag 0x00#8 0 [BitVec.ofNat 16 h.tokens])) s.siteTime freed)

/-- A wait deadline ends its waiter (R120): it leaves its queue and is ENDED with the deadline as event time, with
reason EXPIRED at its feature's end instant and TIMEOUT otherwise; no account moves and nothing else changes. -/
def Obligations.WaitDeadlineEndsTheWaiter : Prop :=
  ∀ (s : State) (j sec : Nat) (f : Feature), s.atOnce = [] →
    let w := s.waiter j
    s.feature w.feature = some f → w.state = .waiting → s.reachedOf .waitDeadline j = some ⟨sec, .waitDeadline, j⟩ →
      exec (.waitDeadline j) s =
        .next { s with
          reached := s.reached.filter (fun d => !d.ofWaiter j)
          pools := tablePut Pool.initial s.pools f.pool
            { s.pool f.pool with queue := (s.pool f.pool).queue.filter (fun k => k != j) }
          waiters := tablePut Waiter.initial s.waiters j
            { w with
              state := .ended
              deadline := 0
              endReason := some (if f.endInstant = some sec then .expired else .timeout)
              eventTime := sec } }

/-- A feature's end instant ends every WAITING waiter of the feature, and no other, with reason EXPIRED and the end
instant as event time; each leaves its queue (R19, R121). The end instant leaves the set of deadlines, the feature keeps
its state and record, and no holding or account changes. -/
def Obligations.FeatureEndInstantEndsTheWaiters : Prop :=
  ∀ (s : State) (code sec : Nat) (f : Feature), TablesOk s → s.atOnce = [] → s.feature code = some f →
    s.reachedOf .featureEnd code = some ⟨sec, .featureEnd, code⟩ →
    ∃ t, exec (.featureEndInstant code) s = .next t
      ∧ (∀ j, t.waiter j =
          if (s.waiter j).state = .waiting ∧ (s.waiter j).feature = code then
            { s.waiter j with state := .ended, deadline := 0, endReason := some .expired, eventTime := sec }
          else s.waiter j)
      ∧ (t.pool f.pool).queue =
          (s.pool f.pool).queue.filter (fun j =>
            decide ¬((s.waiter j).state = .waiting ∧ (s.waiter j).feature = code))
      ∧ (∀ p, { t.pool p with queue := [] } = { s.pool p with queue := [] })
      ∧ (∀ p, p ≠ f.pool → t.pool p = s.pool p)
      ∧ (∀ k, t.feature k = if k = code then some { f with endLodged := false } else s.feature k)
      ∧ t.reached =
          (s.reached.erase ⟨sec, .featureEnd, code⟩).filter (fun d =>
            !(d.ofWaiter d.record
              && decide ((s.waiter d.record).state = .waiting ∧ (s.waiter d.record).feature = code)))
      ∧ { t with waiters := s.waiters, pools := s.pools, features := s.features, reached := s.reached } = s

/-- A deadline command finds nothing to act on where no such deadline has been reached, which changes nothing, or where
its record is no longer in the matching state, which takes the deadline and changes nothing else (R133). That the
command then stands for no event is the model's choice (assumption 10). -/
def Obligations.DeadlineWithoutItsRecordActsOnNothing : Prop :=
  ∀ (s : State) (n : Nat), s.atOnce = [] →
    (s.reachedOf .leaseExpiry n = none → exec (.leaseExpiry n) s = .next s)
    ∧ (s.reachedOf .lingerEnd n = none → exec (.lingerEnd n) s = .next s)
    ∧ (s.reachedOf .borrowEnd n = none → exec (.borrowEnd n) s = .next s)
    ∧ (s.reachedOf .waitDeadline n = none → exec (.waitDeadline n) s = .next s)
    ∧ (s.reachedOf .featureEnd n = none → exec (.featureEndInstant n) s = .next s)
    ∧ ∀ d : Deadline,
        let taken := { s with reached := s.reached.erase d }
        (s.reachedOf .leaseExpiry n = some d → (s.holding n).state ≠ .live → exec (.leaseExpiry n) s = .next taken)
        ∧ (s.reachedOf .lingerEnd n = some d → (s.holding n).state ≠ .lingering →
            exec (.lingerEnd n) s = .next taken)
        ∧ (s.reachedOf .borrowEnd n = some d → (s.holding n).state ≠ .borrowed →
            exec (.borrowEnd n) s = .next taken)
        ∧ (s.reachedOf .waitDeadline n = some d → (s.waiter n).state ≠ .waiting →
            exec (.waitDeadline n) s = .next taken)
        ∧ (s.reachedOf .featureEnd n = some d → s.feature n = none → exec (.featureEndInstant n) s = .next taken)

/-! ### The Request Decoder -/

/-- Every frame that the decoder takes yields exactly one reply, behind those in the queue, with the kind code and the
tag as received, its own length in its first word, and an outcome word (R166); the frame leaves the FIFO, and nothing
else of the link changes. It holds of every kind, and of a frame answered BAD_REQUEST. While the reply queue holds 16
replies, or the FIFO no frame, the decoder takes none; that a command of one kind then changes nothing, and likewise
where the oldest frame is of another kind, is the model's choice (assumption 5). -/
def Obligations.EachFrameTakenYieldsOneReply : Prop :=
  (∀ (s : State) (f : Frame) (rest : List Frame) (c : Instr), Taking s f rest →
    (takerOf (kindCode f) = some c ∨ (c = .badRequest ∧ isBadRequest f = true)) →
    ∃ t r, exec c s = .next t ∧ t.fifo = rest ∧ t.replies = s.replies ++ [r]
      ∧ 3 ≤ r.length ∧ r.length ≤ 20 ∧ hiByte (r.getD 0 0#16) = hiByte (f.getD 0 0#16)
      ∧ lengthOf (r.getD 0 0#16) = r.length ∧ r.getD 1 0#16 = f.getD 1 0#16
      ∧ t.resetLow = s.resetLow ∧ t.admen = s.admen ∧ t.sdo = s.sdo ∧ t.sdoBits = s.sdoBits
      ∧ t.overrun = s.overrun ∧ t.framing = s.framing ∧ t.pending = s.pending)
  ∧ ∀ (s : State) (k : Nat) (c : Instr), takerOf k = some c →
    ((16 ≤ s.replies.length ∨ s.fifo = []) → exec c s = .next s ∧ exec .badRequest s = .next s)
    ∧ (∀ f rest, s.fifo = f :: rest → kindCode f ≠ k → exec c s = .next s)
    ∧ ∀ f rest, s.fifo = f :: rest → isBadRequest f = false → exec .badRequest s = .next s

/-- The decoder's three refusals, in their order (R167): BAD_REQUEST with detail 1 for an unknown kind, BAD_REQUEST with
detail 2 for a length that the kind does not take, NOT_ADMIN for an admin kind while ADMEN is deasserted. Each has a
reply of three words that echoes the kind code and the tag, and changes nothing else. That a frame of a known kind and a
wrong length is taken by BAD_REQUEST as well as by its own command is the model's reading (assumption 6). -/
def Obligations.DecoderRefusesInOrder : Prop :=
  ∀ (s : State) (f : Frame) (rest : List Frame), Taking s f rest →
    let k := kindCode f
    let known := (1 ≤ k ∧ k ≤ 9) ∨ (0x20 ≤ k ∧ k ≤ 0x2F)
    let refused (code : Byte) (detail : Nat) : State :=
      answered s rest [hiByte (f.getD 0 0#16) ++ 3#8, f.getD 1 0#16, outcome code detail]
    (¬known → exec .badRequest s = .next (refused 0x34#8 1))
    ∧ (known → lengthTaken k f.length = false →
        exec .badRequest s = .next (refused 0x34#8 2)
        ∧ ∀ c, takerOf k = some c → exec c s = .next (refused 0x34#8 2))
    ∧ ∀ c, 0x20 ≤ k → k ≤ 0x2F → lengthTaken k f.length = true → s.admen = false → takerOf k = some c →
        exec c s = .next (refused 0x31#8 0)

/-! ### Checkout -/

/-- The order of checks of Checkout (section 4.4, R74 to R76, R36): CLOSED; the lowest-numbered failing field;
UNKNOWN_FEATURE; RETIRED; NOT_YET; EXPIRED; BARRED; UNKNOWN_PROJECT; DENIED_RULE with the deciding offset. Each is
answered with three words, whatever the wait length, and changes nothing else. -/
def Obligations.CheckoutIsRefusedInOrder : Prop :=
  ∀ (s : State) (rest : List Frame) (tag feature user host project seats wait cls : Word),
    Taking s (checkoutFrame tag feature user host project seats wait cls) rest →
    let a := asked s feature user host project seats cls
    let refused (code : Byte) (detail : Nat) : Host.Outcome State Fault Refusal :=
      .next (answered s rest [0x0103#16, tag, outcome code detail])
    (s.service = .closed → exec .checkout s = refused 0x30#8 0)
    ∧ (s.service = .opened →
        (a.feature = 0 → exec .checkout s = refused 0x33#8 2)
        ∧ (a.feature ≠ 0 → a.user = 0 → exec .checkout s = refused 0x33#8 3)
        ∧ (a.feature ≠ 0 → a.user ≠ 0 → a.host = 0 → exec .checkout s = refused 0x33#8 4)
        ∧ (a.feature ≠ 0 → a.user ≠ 0 → a.host ≠ 0 → (a.seats = 0 ∨ 16 < a.seats) →
            exec .checkout s = refused 0x33#8 6)
        ∧ (FieldsPass a → s.feature a.feature = none → exec .checkout s = refused 0x12#8 0)
        ∧ ∀ f, FieldsPass a → s.feature a.feature = some f →
            (f.state = .retiring → exec .checkout s = refused 0x13#8 0)
            ∧ (f.state = .active → s.siteTime < f.startDay * 86400 → exec .checkout s = refused 0x14#8 0)
            ∧ (∀ d, f.state = .active → f.startDay * 86400 ≤ s.siteTime → f.endDay = some d →
                (d + 1) * 86400 ≤ s.siteTime → exec .checkout s = refused 0x15#8 0)
            ∧ (Licensed f s.siteTime → Barred s a.user → exec .checkout s = refused 0x16#8 0)
            ∧ (Licensed f s.siteTime → ¬Barred s a.user → a.project ≠ 0 → a.project ∉ s.projects →
                exec .checkout s = refused 0x17#8 0)
            ∧ ∀ offset, Licensed f s.siteTime → ¬Barred s a.user → (a.project = 0 ∨ a.project ∈ s.projects) →
                s.verdict f (s.ruleInputs a) = (false, offset) → exec .checkout s = refused 0x11#8 offset)

/-- A new holding (R79, R57, R72): with the path of a new holding, its charge passed and an entry had, the entry is
LIVE with the fields of the Checkout, one reference, weight times seats as tokens charged, and the clamped lease expiry;
a reclaimed entry's generation advances; pool and allotment are charged and the over state recomputed. The answer is
GRANTED with the figures of R82, and nothing else changes. A lease expiry at or before site time, as at the top of the
count, is reached before the reply: the holding lapses with reason LEASE, its tokens are refunded, and the scan of the
pool runs (R142, R132). -/
def Obligations.CheckoutMakesANewHolding : Prop :=
  ∀ (s : State) (rest : List Frame) (tag feature user host project seats wait cls : Word) (f : Feature) (i : Nat),
    Taking s (checkoutFrame tag feature user host project seats wait cls) rest → TablesOk s → s.atOnce = [] →
    let a := asked s feature user host project seats cls
    let cost := f.weight * a.seats
    let expiry := f.clamp (s.siteTime + f.lease)
    let old := s.holding i
    let made : Holding :=
      { gen := if old.state = .lapsed then nextGen old.gen else old.gen, state := .live, feature := a.feature,
        pool := f.pool, user := a.user, host := a.host, project := a.project, seats := a.seats, refs := 1,
        tokens := cost, deadline := expiry, endReason := none, eventTime := 0 }
    let charged : State :=
      { s with
        reached := s.reached.filter (fun d => !d.ofHolding i)
        holdings := tablePut Holding.initial s.holdings i made
        pools := tablePut Pool.initial s.pools f.pool
          (chargedPool (s.pool f.pool) cost (s.reserveSum f.pool) s.siteTime)
        allotments := postedAllotments s.allotments a.project f.pool (fun used => used + cost) }
    let lapsed : Holding :=
      { made with state := .lapsed, refs := 0, deadline := 0, endReason := some .lease, eventTime := expiry }
    Admitted s a f → s.choosePath f.sharing a = .fresh → s.chargeCause f.pool a.project a.cls cost = none →
    s.allocate = some i →
    (s.siteTime < expiry →
      exec .checkout s = .next (answered charged rest (grantReply tag 0x01#8 0 i made)))
    ∧ (expiry ≤ s.siteTime → ∀ t, Scanned (leftCounted charged i expiry lapsed) f.pool expiry t →
      exec .checkout s = .next (answered t rest (grantReply tag 0x01#8 0 i made)))

/-- A merge (R80) and a reattach (R81, R57): the holding gains a reference, or returns to LIVE with one; where more
seats are asked its seats rise to them and it is charged the weight for each seat added, and otherwise it is charged
nothing, free of the charging condition (R51, R55); its lease is fresh. A reattach first takes the holding's tokens out
of lingering. The answer is MERGED or REATTACHED, detail 1 where the seats rose. Nothing else changes. A lease expiry at
or before site time is reached before the reply, as for a new holding (R142, R132). -/
def Obligations.CheckoutJoinsAHolding : Prop :=
  ∀ (s : State) (rest : List Frame) (tag feature user host project seats wait cls : Word) (f : Feature) (i : Nat),
    Taking s (checkoutFrame tag feature user host project seats wait cls) rest → TablesOk s → s.atOnce = [] →
    FeaturesHeld s →
    let a := asked s feature user host project seats cls
    let h := s.holding i
    let q := s.pool h.pool
    let cost := f.weight * (a.seats - h.seats)
    let expiry := f.clamp (s.siteTime + f.lease)
    let detail := if h.seats < a.seats then 1 else 0
    let joined (refs : Nat) : Holding :=
      { h with state := .live, refs := refs, seats := max h.seats a.seats, tokens := h.tokens + cost,
               deadline := expiry }
    let base (refs : Nat) : State :=
      { s with
        reached := s.reached.filter (fun d => !d.ofHolding i)
        holdings := tablePut Holding.initial s.holdings i (joined refs) }
    let posted := postedAllotments s.allotments h.project h.pool (fun used => used + cost)
    let grants (x : State) (refs : Nat) (code : Byte) : Prop :=
      let lapsed : Holding :=
        { joined refs with state := .lapsed, refs := 0, deadline := 0, endReason := some .lease, eventTime := expiry }
      (s.siteTime < expiry → exec .checkout s = .next (answered x rest (grantReply tag code detail i (joined refs))))
      ∧ (expiry ≤ s.siteTime → ∀ t, Scanned (leftCounted x i expiry lapsed) h.pool expiry t →
        exec .checkout s = .next (answered t rest (grantReply tag code detail i (joined refs))))
    Admitted s a f → (cost = 0 ∨ s.chargeCause f.pool a.project a.cls cost = none) →
    (s.choosePath f.sharing a = .merge i → h.refs < 65535 →
      let merged : State :=
        if cost = 0 then base (h.refs + 1)
        else
          { base (h.refs + 1) with
            pools := tablePut Pool.initial s.pools h.pool (chargedPool q cost (s.reserveSum h.pool) s.siteTime)
            allotments := posted }
      grants merged (h.refs + 1) 0x02#8)
    ∧ (s.choosePath f.sharing a = .reattach i →
      let taken : Pool := { q with lingering := q.lingering - h.tokens }
      let reattached : State :=
        if cost = 0 then { base 1 with pools := tablePut Pool.initial s.pools h.pool taken }
        else
          { base 1 with
            pools := tablePut Pool.initial s.pools h.pool (chargedPool taken cost (s.reserveSum h.pool) s.siteTime)
            allotments := posted }
      grants reattached 1 0x03#8)

/-- A Checkout that cannot be granted (R77 to R79, R111, R112): TABLE_FULL with detail 1 at 65535 references and with
detail 0 where no entry can be had; and where the charging condition fails, DENIED_CAPACITY with the cause when it does
not wait, QUEUE_FULL when no waiter entry is FREE, and otherwise QUEUED in the lowest FREE entry, behind the last waiter
of its class or above, with its clamped deadline; a deadline at or before site time is reached before the reply, and the
waiter ends with reason TIMEOUT (R142). No holding and no account changes. -/
def Obligations.CheckoutIsHeldBack : Prop :=
  ∀ (s : State) (rest : List Frame) (tag feature user host project seats wait cls : Word) (f : Feature),
    Taking s (checkoutFrame tag feature user host project seats wait cls) rest → s.atOnce = [] → QueuesOk s →
    let a := asked s feature user host project seats cls
    let path := s.choosePath f.sharing a
    let cost := s.pathCost f.weight a.seats path
    let deadline := f.clamp (s.siteTime + min wait.toNat 3600)
    let refused (code : Byte) (detail : Nat) : Host.Outcome State Fault Refusal :=
      .next (answered s rest [0x0103#16, tag, outcome code detail])
    Admitted s a f →
    (∀ i, path = .merge i → 65535 ≤ (s.holding i).refs → exec .checkout s = refused 0x18#8 1)
    ∧ (path = .fresh → s.chargeCause f.pool a.project a.cls cost = none → s.allocate = none →
        exec .checkout s = refused 0x18#8 0)
    ∧ ∀ cause, (∀ i, path = .merge i → (s.holding i).refs < 65535) → cost ≠ 0 →
        s.chargeCause f.pool a.project a.cls cost = some cause →
        (wait.toNat = 0 → exec .checkout s = refused 0x10#8 cause)
        ∧ (wait.toNat ≠ 0 → (∀ j, j < 256 → (s.waiter j).state ≠ .free) → exec .checkout s = refused 0x19#8 cause)
        ∧ ∀ j, wait.toNat ≠ 0 → j < 256 → (s.waiter j).state = .free → (∀ k, k < j → (s.waiter k).state ≠ .free) →
            let queued : Waiter :=
              { gen := (s.waiter j).gen, state := .waiting, feature := a.feature, user := a.user, host := a.host,
                project := a.project, seats := a.seats, cls := a.cls, deadline := deadline, handleIndex := 0,
                handleGen := 0, merged := false, endReason := none, eventTime := 0 }
            let entered (w : Waiter) : State :=
              { answered s rest [0x0105#16, tag, outcome 0x04#8 cause, wordOf j, wordOf (s.waiter j).gen] with
                reached := s.reached.filter (fun d => !d.ofWaiter j)
                waiters := tablePut Waiter.initial s.waiters j w }
            (s.siteTime < deadline →
              exec .checkout s =
                .next { entered queued with
                  pools := tablePut Pool.initial s.pools f.pool
                    { s.pool f.pool with
                      queue :=
                        (s.pool f.pool).queue.takeWhile (fun k => decide (a.cls ≤ (s.waiter k).cls))
                          ++ j :: (s.pool f.pool).queue.dropWhile (fun k => decide (a.cls ≤ (s.waiter k).cls)) } })
            ∧ (deadline ≤ s.siteTime → TablesOk s →
              exec .checkout s =
                .next (entered
                  { queued with state := .ended, deadline := 0, endReason := some .timeout, eventTime := deadline }))

/-- The path of a Checkout (R77, R67 to R69). USER and STATION: a holding LIVE or LINGERING with the merge key makes the
path a merge or a reattach; none, a new holding. SEPARATE: the LINGERING holding of the reattach key whose linger ends
soonest, and of equal ones the lowest entry, is reattached; none, a new holding. A BORROWED holding is never found. -/
def Obligations.PathFollowsTheKeyIndex : Prop :=
  ∀ (s : State) (sharing : Sharing) (a : Asking), TablesOk s →
    let keyed (i : Nat) : Prop :=
      (s.holding i).feature = a.feature ∧ (s.holding i).user = a.user ∧ (s.holding i).project = a.project
        ∧ (sharing ≠ .user → (s.holding i).host = a.host)
    (sharing ≠ .separate →
      (∀ i, s.choosePath sharing a = .merge i → (s.holding i).state = .live ∧ keyed i)
      ∧ (∀ i, s.choosePath sharing a = .reattach i → (s.holding i).state = .lingering ∧ keyed i)
      ∧ (s.choosePath sharing a = .fresh ↔
          ∀ i, keyed i → (s.holding i).state ≠ .live ∧ (s.holding i).state ≠ .lingering))
    ∧ (sharing = .separate →
      (∀ i, s.choosePath sharing a ≠ .merge i)
      ∧ (∀ i, s.choosePath sharing a = .reattach i →
          (s.holding i).state = .lingering ∧ keyed i
          ∧ ∀ k, keyed k → (s.holding k).state = .lingering →
              (s.holding i).deadline < (s.holding k).deadline
                ∨ ((s.holding i).deadline = (s.holding k).deadline ∧ i ≤ k))
      ∧ (s.choosePath sharing a = .fresh ↔ ∀ i, keyed i → (s.holding i).state ≠ .lingering))

/-- Allocation (R71): the lowest-numbered FREE entry; where none is FREE, the LAPSED entry with the earliest event time,
and of equal ones the lowest-numbered; none where no entry is FREE or LAPSED. -/
def Obligations.AllocationTakesFreeThenOldestLapsed : Prop :=
  ∀ s : State, TablesOk s →
    (∀ i, s.allocate = some i →
      (i < 8192 ∧ (s.holding i).state = .free ∧ ∀ k, k < i → (s.holding k).state ≠ .free)
      ∨ ((∀ k, k < 8192 → (s.holding k).state ≠ .free) ∧ (s.holding i).state = .lapsed
        ∧ ∀ k, (s.holding k).state = .lapsed →
            (s.holding i).eventTime < (s.holding k).eventTime
              ∨ ((s.holding i).eventTime = (s.holding k).eventTime ∧ i ≤ k)))
    ∧ (s.allocate = none ↔
        (∀ k, k < 8192 → (s.holding k).state ≠ .free) ∧ ∀ k, (s.holding k).state ≠ .lapsed)

/-- The books a charge is judged by: headroom is the capacity less used less the shortfalls of the other projects'
allotments, and 0 where that is below 0 (R52); and the charging condition fails with cause 3 in an over pool, else 4
with a waiter of equal or higher class in the queue, else 2 past the project's cap, else 1 past the headroom (R53). -/
def Obligations.ChargingConditionWeighsTheBooks : Prop :=
  (∀ (s : State) (pool project : Nat),
    (s.headroom pool project : Int) =
      max 0 ((s.pool pool).capacity - (s.pool pool).used
        - ((s.allotments.filter (fun a => decide (a.pool = pool ∧ a.project ≠ project))).map
            (fun a => max 0 ((a.reserve : Int) - a.used))).sum))
  ∧ ∀ (s : State) (pool project cls cost : Nat),
      let overfull := (s.pool pool).isOver = true
      let ahead := ∃ j ∈ (s.pool pool).queue, (s.waiter j).state = .waiting ∧ cls ≤ (s.waiter j).cls
      let capped := ∃ a cap, s.allotment project pool = some a ∧ a.cap = some cap ∧ cap < a.used + cost
      let short := s.headroom pool project < cost
      (overfull → s.chargeCause pool project cls cost = some 3)
      ∧ (¬overfull → ahead → s.chargeCause pool project cls cost = some 4)
      ∧ (¬overfull → ¬ahead → capped → s.chargeCause pool project cls cost = some 2)
      ∧ (¬overfull → ¬ahead → ¬capped → short → s.chargeCause pool project cls cost = some 1)
      ∧ (¬overfull → ¬ahead → ¬capped → ¬short → s.chargeCause pool project cls cost = none)

/-! ### Holdings by their handle -/

/-- The fields and handles of Renew, Release, Borrow, Return and Cancel Wait (R66, R108, R171, R172):
the index first, then the flag or the days; then a handle that names no holding is answered NO_HOLDING, and a ticket
that names no waiter NO_TICKET. A Borrow meets CLOSED before them (R95). Nothing else changes. -/
def Obligations.HandlesAndTicketsAreChecked : Prop :=
  ∀ (s : State) (rest : List Frame) (tag index gen last : Word),
    let i := index.toNat
    let outside := 8192 ≤ i
    let stale := i < 8192 ∧ ((s.holding i).gen ≠ gen.toNat ∨ (s.holding i).state = .free)
    (Taking s [0x0204#16, tag, index, gen] rest →
      (outside → exec .renew s = turned s rest 0x02#8 tag 0x33#8 2)
      ∧ (stale → exec .renew s = turned s rest 0x02#8 tag 0x20#8 0))
    ∧ (Taking s [0x0504#16, tag, index, gen] rest →
      (outside → exec .giveBack s = turned s rest 0x05#8 tag 0x33#8 2)
      ∧ (stale → exec .giveBack s = turned s rest 0x05#8 tag 0x20#8 0))
    ∧ (Taking s [0x0305#16, tag, index, gen, last] rest →
      (outside → exec .release s = turned s rest 0x03#8 tag 0x33#8 2)
      ∧ (i < 8192 → 1 < last.toNat → exec .release s = turned s rest 0x03#8 tag 0x33#8 4)
      ∧ (stale → last.toNat ≤ 1 → exec .release s = turned s rest 0x03#8 tag 0x20#8 0))
    ∧ (Taking s [0x0405#16, tag, index, gen, last] rest →
      (s.service = .closed → exec .borrow s = turned s rest 0x04#8 tag 0x30#8 0)
      ∧ (s.service = .opened → outside → exec .borrow s = turned s rest 0x04#8 tag 0x33#8 2)
      ∧ (s.service = .opened → i < 8192 → last.toNat = 0 → exec .borrow s = turned s rest 0x04#8 tag 0x33#8 4)
      ∧ (s.service = .opened → stale → last.toNat ≠ 0 → exec .borrow s = turned s rest 0x04#8 tag 0x20#8 0))
    ∧ (Taking s [0x0604#16, tag, index, gen] rest →
      (256 ≤ i → exec .cancelWait s = turned s rest 0x06#8 tag 0x33#8 2)
      ∧ (i < 256 → ((s.waiter i).gen ≠ gen.toNat ∨ (s.waiter i).state = .free) →
          exec .cancelWait s = turned s rest 0x06#8 tag 0x27#8 0))

/-- The state of a holding decides how a request about it is refused (R83, R84, R88, R94, R95, R99): ENDED with detail 1
for a LINGERING holding and 2 for a LAPSED one, BORROWED for a borrowed one; a Return is answered NOT_BORROWED for a
LIVE or LINGERING holding. Nothing else changes. -/
def Obligations.HoldingStateDecidesTheRefusal : Prop :=
  ∀ (s : State) (rest : List Frame) (tag index gen last : Word),
    let h := s.holding index.toNat
    index.toNat < 8192 → h.gen = gen.toNat →
    (Taking s [0x0204#16, tag, index, gen] rest →
      (h.state = .lingering → exec .renew s = turned s rest 0x02#8 tag 0x21#8 1)
      ∧ (h.state = .lapsed → exec .renew s = turned s rest 0x02#8 tag 0x21#8 2)
      ∧ (h.state = .borrowed → exec .renew s = turned s rest 0x02#8 tag 0x22#8 0))
    ∧ (Taking s [0x0305#16, tag, index, gen, last] rest → last.toNat ≤ 1 →
      (h.state = .lingering → exec .release s = turned s rest 0x03#8 tag 0x21#8 1)
      ∧ (h.state = .lapsed → exec .release s = turned s rest 0x03#8 tag 0x21#8 2)
      ∧ (h.state = .borrowed → exec .release s = turned s rest 0x03#8 tag 0x22#8 0))
    ∧ (Taking s [0x0405#16, tag, index, gen, last] rest → s.service = .opened → last.toNat ≠ 0 →
      (h.state = .lingering → exec .borrow s = turned s rest 0x04#8 tag 0x21#8 1)
      ∧ (h.state = .lapsed → exec .borrow s = turned s rest 0x04#8 tag 0x21#8 2)
      ∧ (h.state = .borrowed → exec .borrow s = turned s rest 0x04#8 tag 0x22#8 0))
    ∧ (Taking s [0x0504#16, tag, index, gen] rest →
      (h.state = .live → exec .giveBack s = turned s rest 0x05#8 tag 0x23#8 0)
      ∧ (h.state = .lingering → exec .giveBack s = turned s rest 0x05#8 tag 0x23#8 0)
      ∧ (h.state = .lapsed → exec .giveBack s = turned s rest 0x05#8 tag 0x21#8 2))

/-- Renew of a LIVE holding (R83): BARRED for a barred user, whose holding keeps its deadline; otherwise the lease
expiry becomes site time plus the feature's lease length, clamped (R134), and the reply carries it. No account figure,
no seats, no references and nothing else change, in either service state and whatever ADMEN is. An expiry at or before
site time, as at the feature's end instant or at the top of the count, is reached before the reply: the holding lapses,
its tokens are refunded, and the scan of its pool runs (R89, R142, R59). -/
def Obligations.RenewGivesAFreshLease : Prop :=
  ∀ (s : State) (rest : List Frame) (tag index gen : Word) (f : Feature),
    Taking s [0x0204#16, tag, index, gen] rest → s.atOnce = [] →
    let i := index.toNat
    let h := s.holding i
    let expiry := f.clamp (s.siteTime + f.lease)
    i < 8192 → h.gen = gen.toNat → h.state = .live → s.feature h.feature = some f →
    (Barred s h.user → exec .renew s = turned s rest 0x02#8 tag 0x16#8 0)
    ∧ (¬Barred s h.user → s.siteTime < expiry →
        exec .renew s =
          .next { answered s rest (reply 0x02#8 tag 0x00#8 0 (two expiry)) with
            reached := s.reached.filter (fun d => !d.ofHolding i)
            holdings := tablePut Holding.initial s.holdings i { h with deadline := expiry } })
    ∧ (¬Barred s h.user → expiry ≤ s.siteTime → TablesOk s → NoDrain s i →
        let reason : HoldingEnd := if f.endInstant = some expiry then .featureEnd else .lease
        let lapsed : Holding :=
          { h with state := .lapsed, refs := 0, deadline := 0, endReason := some reason, eventTime := expiry }
        ∀ t, Scanned (leftCounted s i expiry lapsed) h.pool expiry t →
          exec .renew s = .next (answered t rest (reply 0x02#8 tag 0x00#8 0 (two expiry))))

/-- Release of a LIVE holding (R84, R85, R58, R59). References above 1 fall by 1. The last reference takes the holding
to LINGERING until its clamped linger end where the feature lingers and the return-now flag is clear, its tokens added
to the pool's lingering; otherwise the entry is FREE, its generation advanced and its tokens refunded, and then the scan
of the pool runs, or the resumption pass where the entry-starved mark is set (R113, R119, R73). A linger end at or
before site time is reached before the reply, and the entry goes to FREE likewise (R142). Nothing else changes where no
feature drains. That a holding granted by a pass, its lease reached at once, lapses between the scans of the pass is the
model's reading (assumption 22). -/
def Obligations.ReleaseDropsAReferenceOrEndsTheHolding : Prop :=
  ∀ (s : State) (rest : List Frame) (tag index gen flag : Word) (f : Feature),
    Taking s [0x0305#16, tag, index, gen, flag] rest → TablesOk s → s.atOnce = [] →
    let i := index.toNat
    let h := s.holding i
    let lingerEnd := f.clamp (s.siteTime + f.linger)
    i < 8192 → h.gen = gen.toNat → h.state = .live → s.feature h.feature = some f → flag.toNat ≤ 1 →
    (1 < h.refs →
      exec .release s =
        .next { answered s rest (reply 0x03#8 tag 0x00#8 0 (BitVec.ofNat 16 (h.refs - 1) :: two h.deadline)) with
          holdings := tablePut Holding.initial s.holdings i { h with refs := h.refs - 1 } })
    ∧ (h.refs = 1 → 0 < f.linger → flag = 0#16 → s.siteTime < lingerEnd →
      exec .release s =
        .next { answered s rest (reply 0x03#8 tag 0x00#8 1 (0#16 :: two lingerEnd)) with
          reached := s.reached.filter (fun d => !d.ofHolding i)
          holdings := tablePut Holding.initial s.holdings i
            { h with state := .lingering, refs := 0, deadline := lingerEnd }
          pools := tablePut Pool.initial s.pools h.pool
            { s.pool h.pool with lingering := (s.pool h.pool).lingering + h.tokens } })
    ∧ (h.refs = 1 → 0 < f.linger → flag = 0#16 → lingerEnd ≤ s.siteTime → NoDrain s i →
      let lingering : State :=
        { s with
          holdings := tablePut Holding.initial s.holdings i
            { h with state := .lingering, refs := 0, deadline := lingerEnd }
          pools := tablePut Pool.initial s.pools h.pool
            { s.pool h.pool with lingering := (s.pool h.pool).lingering + h.tokens } }
      ∀ t, FreedScanned (leftCounted lingering i lingerEnd (Holding.freeEntry (nextGen h.gen))) h.pool lingerEnd t →
        exec .release s = .next (answered t rest (reply 0x03#8 tag 0x00#8 1 (0#16 :: two lingerEnd))))
    ∧ (h.refs = 1 → (f.linger = 0 ∨ flag = 1#16) → NoDrain s i →
      let done := reply 0x03#8 tag 0x00#8 2 [0#16, 0#16, 0#16]
      let freed : State := leftCounted s i s.siteTime (Holding.freeEntry (nextGen h.gen))
      (NoOneServed s h.pool → exec .release s = .next (answered freed rest done))
      ∧ ∀ t, FreedScanned freed h.pool s.siteTime t → exec .release s = .next (answered t rest done))

/-- Borrow of a LIVE holding in an OPEN service (R95 to R98, R60), in its order: BARRED, NO_BORROW, SHARED, BORROW_CAP;
otherwise BORROWED until site time plus the days taken, clamped, with the days held to the borrow maximum; its tokens
stand in the pool's borrowed figure too, and no other figure moves. Nothing else changes. A borrow end at or before site
time, as at the feature's end instant or at the top of the count, is reached before the reply: the holding lapses with
reason BORROW_END, its tokens come back from used and from borrowed, and the scan of its pool runs (R102, R142). -/
def Obligations.BorrowConvertsTheHolding : Prop :=
  ∀ (s : State) (rest : List Frame) (tag index gen days : Word) (f : Feature),
    Taking s [0x0405#16, tag, index, gen, days] rest → s.atOnce = [] → s.service = .opened →
    let i := index.toNat
    let h := s.holding i
    let q := s.pool h.pool
    let taken := min days.toNat f.borrowMax
    let borrowEnd := f.clamp (s.siteTime + taken * 86400)
    i < 8192 → days.toNat ≠ 0 → h.gen = gen.toNat → h.state = .live → s.feature h.feature = some f →
    (Barred s h.user → exec .borrow s = turned s rest 0x04#8 tag 0x16#8 0)
    ∧ (¬Barred s h.user → f.borrowMax = 0 → exec .borrow s = turned s rest 0x04#8 tag 0x24#8 0)
    ∧ (¬Barred s h.user → f.borrowMax ≠ 0 → 1 < h.refs → exec .borrow s = turned s rest 0x04#8 tag 0x26#8 0)
    ∧ (¬Barred s h.user → f.borrowMax ≠ 0 → h.refs = 1 → q.borrowCap < q.borrowed + h.tokens →
        exec .borrow s = turned s rest 0x04#8 tag 0x25#8 0)
    ∧ (¬Barred s h.user → f.borrowMax ≠ 0 → h.refs = 1 → q.borrowed + h.tokens ≤ q.borrowCap →
        s.siteTime < borrowEnd →
        exec .borrow s =
          .next { answered s rest (reply 0x04#8 tag 0x00#8 taken
              (two borrowEnd ++ [BitVec.ofNat 16 h.seats, BitVec.ofNat 16 h.tokens])) with
            reached := s.reached.filter (fun d => !d.ofHolding i)
            holdings := tablePut Holding.initial s.holdings i
              { h with state := .borrowed, refs := 1, deadline := borrowEnd }
            pools := tablePut Pool.initial s.pools h.pool { q with borrowed := q.borrowed + h.tokens } })
    ∧ (¬Barred s h.user → f.borrowMax ≠ 0 → h.refs = 1 → q.borrowed + h.tokens ≤ q.borrowCap →
        borrowEnd ≤ s.siteTime → TablesOk s → NoDrain s i →
        let converted : State :=
          { s with
            holdings := tablePut Holding.initial s.holdings i
              { h with state := .borrowed, refs := 1, deadline := borrowEnd }
            pools := tablePut Pool.initial s.pools h.pool { q with borrowed := q.borrowed + h.tokens } }
        let lapsed : Holding :=
          { h with state := .lapsed, refs := 0, deadline := 0, endReason := some .borrowEnd, eventTime := borrowEnd }
        ∀ t, Scanned (leftCounted converted i borrowEnd lapsed) h.pool borrowEnd t →
          exec .borrow s =
            .next (answered t rest (reply 0x04#8 tag 0x00#8 taken
              (two borrowEnd ++ [BitVec.ofNat 16 h.seats, BitVec.ofNat 16 h.tokens]))))

/-- Return of a BORROWED holding (R99, R59, R73): the entry is FREE and its generation advances, its tokens are refunded
from used, borrowed and the allotment, and the reply carries them. Then the scan of the pool runs, or the resumption
pass where the entry-starved mark is set (R113, R119). Nothing else changes where no feature drains. That a holding
granted by a pass, its lease reached at once, lapses between the scans of the pass is the model's reading (assumption
22). -/
def Obligations.ReturnFreesTheBorrowedHolding : Prop :=
  ∀ (s : State) (rest : List Frame) (tag index gen : Word),
    Taking s [0x0504#16, tag, index, gen] rest → TablesOk s → s.atOnce = [] →
    let i := index.toNat
    let h := s.holding i
    let done := reply 0x05#8 tag 0x00#8 0 [BitVec.ofNat 16 h.tokens]
    let freed : State := leftCounted s i s.siteTime (Holding.freeEntry (nextGen h.gen))
    i < 8192 → h.gen = gen.toNat → h.state = .borrowed → NoDrain s i →
    (NoOneServed s h.pool → exec .giveBack s = .next (answered freed rest done))
    ∧ ∀ t, FreedScanned freed h.pool s.siteTime t → exec .giveBack s = .next (answered t rest done)

/-- Query Holding (R92): the index and generation, the state and every field of the entry, in either service state and
whatever ADMEN is; a stale handle is answered NO_HOLDING. Nothing changes but the link. -/
def Obligations.QueryHoldingReportsTheEntry : Prop :=
  ∀ (s : State) (rest : List Frame) (tag index gen : Word), Taking s [0x0704#16, tag, index, gen] rest →
    let h := s.holding index.toNat
    (8192 ≤ index.toNat → exec .queryHolding s = turned s rest 0x07#8 tag 0x33#8 2)
    ∧ (index.toNat < 8192 → (h.gen ≠ gen.toNat ∨ h.state = .free) →
        exec .queryHolding s = turned s rest 0x07#8 tag 0x20#8 0)
    ∧ (index.toNat < 8192 → h.gen = gen.toNat → h.state ≠ .free →
        exec .queryHolding s =
          .next (answered s rest (reply 0x07#8 tag 0x00#8 0
            ([index, gen, stateWord h.state, BitVec.ofNat 16 h.feature, BitVec.ofNat 16 h.pool,
              BitVec.ofNat 16 h.user, BitVec.ofNat 16 h.host, BitVec.ofNat 16 h.project, BitVec.ofNat 16 h.seats,
              BitVec.ofNat 16 h.refs, BitVec.ofNat 16 h.tokens] ++ two h.deadline
              ++ [holdingEndWord h.endReason] ++ two h.eventTime))))

/-! ### Waiters by their ticket -/

/-- Cancel Wait (R122, R123): a WAITING waiter leaves its queue and is CANCELLED; a GRANTED one is answered with its
handle and merged flag, its holding untouched; an ENDED one with its reason and event time. Each entry goes to FREE and
its generation advances. No account figure moves, no scan runs, and nothing else changes. -/
def Obligations.CancelWaitFreesTheWaiter : Prop :=
  ∀ (s : State) (rest : List Frame) (tag index gen : Word), Taking s [0x0604#16, tag, index, gen] rest →
    s.atOnce = [] →
    let j := index.toNat
    let w := s.waiter j
    let freed (r : Frame) : State :=
      { answered s rest r with
        reached := s.reached.filter (fun d => !d.ofWaiter j)
        waiters := tablePut Waiter.initial s.waiters j (Waiter.freeEntry (nextGen w.gen)) }
    j < 256 → w.gen = gen.toNat →
    (∀ f, w.state = .waiting → s.feature w.feature = some f →
      exec .cancelWait s =
        .next { freed (reply 0x06#8 tag 0x00#8 4 [4#16, 0#16, 0#16, 0#16, 0#16]) with
          pools := tablePut Pool.initial s.pools f.pool
            { s.pool f.pool with queue := (s.pool f.pool).queue.filter (fun k => k != j) } })
    ∧ (w.state = .granted →
      exec .cancelWait s =
        .next (freed (reply 0x06#8 tag 0x01#8 (if w.merged then 1 else 0)
          [0#16, BitVec.ofNat 16 w.handleIndex, BitVec.ofNat 16 w.handleGen, 0#16, 0#16])))
    ∧ (w.state = .ended →
      exec .cancelWait s =
        .next (freed (reply 0x06#8 tag 0x21#8 (waiterEndNumber w.endReason)
          ([BitVec.ofNat 16 (waiterEndNumber w.endReason), 0#16, 0#16] ++ two w.eventTime))))

/-! ### The books of a pool and the record of a feature -/

/-- Query Pool (R62): the pool's definition and figures, its reserve sum, its waiters, its over state, the headroom for
the project and the project's allotment; project 0 has none. BAD_FIELD for a pool above 63, UNKNOWN_PROJECT for a
nonzero project that is not listed. Nothing changes but the link. -/
def Obligations.QueryPoolReportsTheBooks : Prop :=
  ∀ (s : State) (rest : List Frame) (tag pool project : Word), Taking s [0x0804#16, tag, pool, project] rest →
    let q := s.pool pool.toNat
    let books (allotment : List Word) : Host.Outcome State Fault Refusal :=
      .next (answered s rest (reply 0x08#8 tag 0x00#8 0
        ([BitVec.ofNat 16 q.capacity, BitVec.ofNat 16 q.borrowCap, BitVec.ofNat 16 q.used, BitVec.ofNat 16 q.borrowed,
          BitVec.ofNat 16 q.lingering] ++ two (s.reserveSum pool.toNat)
          ++ [BitVec.ofNat 16 q.queue.length, if q.isOver then 1#16 else 0#16,
            BitVec.ofNat 16 (s.headroom pool.toNat project.toNat)]
          ++ allotment)))
    (64 ≤ pool.toNat → exec .queryPool s = turned s rest 0x08#8 tag 0x33#8 2)
    ∧ (pool.toNat < 64 → project.toNat ≠ 0 → project.toNat ∉ s.projects →
        exec .queryPool s = turned s rest 0x08#8 tag 0x17#8 0)
    ∧ (pool.toNat < 64 →
        (project.toNat = 0 → exec .queryPool s = books [0#16, 0#16, 0#16, 0#16])
        ∧ (project.toNat ≠ 0 → project.toNat ∈ s.projects →
            (s.allotment project.toNat pool.toNat = none → exec .queryPool s = books [0#16, 0#16, 0#16, 0#16])
            ∧ ∀ a, s.allotment project.toNat pool.toNat = some a →
                (a.cap = none →
                  exec .queryPool s = books [1#16, BitVec.ofNat 16 a.reserve, 0#16, BitVec.ofNat 16 a.used])
                ∧ ∀ cap, a.cap = some cap →
                  exec .queryPool s =
                    books [2#16, BitVec.ofNat 16 a.reserve, BitVec.ofNat 16 cap, BitVec.ofNat 16 a.used]))

/-- Query Feature (R21): the state and every field of the record, the chain start marked absent where there is none, and
the five counts at decode. BAD_FIELD for code 0, UNKNOWN_FEATURE for a FREE code, NOT_ADMIN while ADMEN is deasserted.
Nothing changes but the link. -/
def Obligations.QueryFeatureReportsTheRecord : Prop :=
  ∀ (s : State) (rest : List Frame) (tag code : Word), Taking s [0x2A03#16, tag, code] rest → TablesOk s →
    EntriesOk s →
    let c := code.toNat
    (s.admen = false → exec .queryFeature s = turned s rest 0x2A#8 tag 0x31#8 0)
    ∧ (s.admen = true → c = 0 → exec .queryFeature s = turned s rest 0x2A#8 tag 0x33#8 2)
    ∧ (s.admen = true → c ≠ 0 → s.feature c = none → exec .queryFeature s = turned s rest 0x2A#8 tag 0x12#8 0)
    ∧ ∀ f, s.admen = true → c ≠ 0 → s.feature c = some f →
        exec .queryFeature s =
          .next (answered s rest (reply 0x2A#8 tag 0x00#8 0
            ([if f.state = .active then 1#16 else 2#16, BitVec.ofNat 16 f.pool, BitVec.ofNat 16 f.weight,
              match f.sharing with
              | .separate => 0#16
              | .user => 1#16
              | .station => 2#16,
              BitVec.ofNat 16 f.startDay,
              match f.endDay with
              | none => 65535#16
              | some d => BitVec.ofNat 16 d]
              ++ two f.lease
              ++ [BitVec.ofNat 16 f.linger, BitVec.ofNat 16 f.borrowMax, if f.chain = none then 0#16 else 1#16,
                BitVec.ofNat 16 (f.chain.getD 0), BitVec.ofNat 16 (countHoldings s c .live),
                BitVec.ofNat 16 (countHoldings s c .borrowed), BitVec.ofNat 16 (countHoldings s c .lingering),
                BitVec.ofNat 16 (countHoldings s c .lapsed), BitVec.ofNat 16 (countWaiters s c)])))

/-! ### Notices -/

/-- Next Notice chooses its record (R148, R149): a selector above 5 is refused; naming a kind without a pending record,
or ANY while no enabled kind has one, is answered NO_NOTICE; and ANY reports as if the enabled kind of highest level
with a pending record had been named, and among kinds of equal level the one of lowest tie position. -/
def Obligations.NextNoticeChoosesAKind : Prop :=
  ∀ (s : State) (rest : List Frame) (tag selector : Word), Taking s [0x0903#16, tag, selector] rest →
    (5 < selector.toNat → exec .nextNotice s = turned s rest 0x09#8 tag 0x33#8 2)
    ∧ (∀ k : NoticeKind, selector.toNat = k.position → s.records k = [] →
        exec .nextNotice s = turned s rest 0x09#8 tag 0x38#8 0)
    ∧ (selector.toNat = 0 → (∀ k, (s.notices.of k).enable = true → s.records k = []) →
        exec .nextNotice s = turned s rest 0x09#8 tag 0x38#8 0)
    ∧ ∀ k : NoticeKind, selector.toNat = 0 → (s.notices.of k).enable = true → s.records k ≠ [] →
        (∀ k', (s.notices.of k').enable = true → s.records k' ≠ [] →
          (s.notices.of k').level < (s.notices.of k).level
            ∨ ((s.notices.of k').level = (s.notices.of k).level ∧ k.position ≤ k'.position)) →
        exec .nextNotice s =
          exec .nextNotice { s with fifo := [0x0903#16, tag, BitVec.ofNat 16 k.position] :: rest }

/-- Next Notice reports the oldest record of the kind it names, by event time and then by index, and consumes it (R147,
R149 to R154). A waiter's entry, or a LAPSED holding's, goes to FREE and its generation advances; an OVER mark is
cleared and the pool reported as it stands; a drained-feature record is removed. The body counts the records of the kind
still pending. Nothing else changes; but where the service is OPEN and the entry-starved mark is set, the freeing of a
LAPSED entry starts the resumption pass, and the count is taken after it (R119, R152). That the count has the holdings
which the pass granted and which lapsed at once is the model's reading (assumption 12). That a holding granted by a
pass, its lease reached at once, lapses between the scans of the pass is the model's reading (assumption 22). -/
def Obligations.NextNoticeReportsAndConsumesTheOldest : Prop :=
  ∀ (s : State) (rest : List Frame) (tag selector : Word) (n t : Nat), Taking s [0x0903#16, tag, selector] rest →
    TablesOk s → s.atOnce = [] →
    let w := s.waiter n
    let h := s.holding n
    let q := s.pool n
    let left (k : NoticeKind) : Word := BitVec.ofNat 16 ((s.records k).length - 1)
    let first (time : Nat) (index : Nat) : Prop := t < time ∨ (t = time ∧ n ≤ index)
    let request : List Word :=
      [BitVec.ofNat 16 n, BitVec.ofNat 16 w.gen, BitVec.ofNat 16 w.feature, BitVec.ofNat 16 w.user,
        BitVec.ofNat 16 w.host, BitVec.ofNat 16 w.project, BitVec.ofNat 16 w.seats, BitVec.ofNat 16 w.cls]
    let waiterFreed (r : Frame) : State :=
      { answered s rest r with
        reached := s.reached.filter (fun d => !d.ofWaiter n)
        waiters := tablePut Waiter.initial s.waiters n (Waiter.freeEntry (nextGen w.gen)) }
    let lapseReply (count : Nat) : Frame :=
      reply 0x09#8 tag 0x00#8 3
        (BitVec.ofNat 16 count :: ([BitVec.ofNat 16 n, BitVec.ofNat 16 h.gen, BitVec.ofNat 16 h.feature,
          BitVec.ofNat 16 h.pool, BitVec.ofNat 16 h.user, BitVec.ofNat 16 h.host, BitVec.ofNat 16 h.project,
          BitVec.ofNat 16 h.seats, BitVec.ofNat 16 h.tokens, holdingEndWord h.endReason] ++ two t))
    let lapseFreed : State :=
      { s with
        reached := s.reached.filter (fun d => !d.ofHolding n)
        holdings := tablePut Holding.initial s.holdings n (Holding.freeEntry (nextGen h.gen)) }
    (selector = 1#16 → w.state = .granted → w.eventTime = t →
      (∀ k, (s.waiter k).state = .granted → first (s.waiter k).eventTime k) →
      exec .nextNotice s =
        .next (waiterFreed (reply 0x09#8 tag 0x00#8 1
          (left .grant :: (request ++ [BitVec.ofNat 16 w.handleIndex, BitVec.ofNat 16 w.handleGen,
            if w.merged then 1#16 else 0#16] ++ two t)))))
    ∧ (selector = 2#16 → w.state = .ended → w.eventTime = t →
      (∀ k, (s.waiter k).state = .ended → first (s.waiter k).eventTime k) →
      exec .nextNotice s =
        .next (waiterFreed (reply 0x09#8 tag 0x00#8 2
          (left .waitEnd :: (request ++ [BitVec.ofNat 16 (waiterEndNumber w.endReason)] ++ two t)))))
    ∧ (selector = 3#16 → h.state = .lapsed → h.eventTime = t →
      (∀ k, (s.holding k).state = .lapsed → first (s.holding k).eventTime k) →
      ((s.starved = false ∨ s.service = .closed) →
        exec .nextNotice s = .next (answered lapseFreed rest (lapseReply ((s.records .lapse).length - 1))))
      ∧ (s.starved = true → s.service = .opened → ∀ u, PassMade lapseFreed s.siteTime u →
        exec .nextNotice s = .next (answered u rest (lapseReply (u.records .lapse).length))))
    ∧ (selector = 4#16 → q.overMark = some t →
      (∀ k time, (s.pool k).overMark = some time → first time k) →
      exec .nextNotice s =
        .next { answered s rest (reply 0x09#8 tag 0x00#8 4
            (left .poolOver :: ([BitVec.ofNat 16 n] ++ two t ++ [BitVec.ofNat 16 q.used, BitVec.ofNat 16 q.capacity]
              ++ two (s.reserveSum n) ++ [if q.isOver then 1#16 else 0#16]))) with
          pools := tablePut Pool.initial s.pools n { q with overMark := none } })
    ∧ (selector = 5#16 → { feature := n, eventTime := t } ∈ s.drained →
      (∀ d ∈ s.drained, first d.eventTime d.feature) →
      exec .nextNotice s =
        .next { answered s rest (reply 0x09#8 tag 0x00#8 5 (left .drained :: ([BitVec.ofNat 16 n] ++ two t))) with
          drained := s.drained.erase { feature := n, eventTime := t } })

/-! ### Set Time -/

/-- A Set Time to the present site time is accepted with detail 2 and restarts the divider at 0: the deadlines and all
else stay, and the next advance comes a full 32768 periods later (R138). That SITE_TIME_ADVANCE stands for those periods
is the model's choice (assumption 7). -/
def Obligations.SetTimeToTheSameSecondRestartsTheDivider : Prop :=
  ∀ (s : State) (rest : List Frame) (tag hi lo : Word), Taking s [0x2004#16, tag, hi, lo] rest → s.admen = true →
    s.timeState = .set → value32 hi lo = s.siteTime →
    ∃ t, exec .setTime s = .next t
      ∧ t = { answered s rest (reply 0x20#8 tag 0x00#8 2 (two s.siteTime)) with divider := 0 }
      ∧ (∀ n, n < 32768 → afterPeriods n t = some { t with divider := n })
      ∧ ∃ u, exec .siteTimeAdvance t = .next u ∧ afterPeriods 32768 t = some u

/-- The first Set Time, with detail 0, and a forward step, with detail 1 (R137, R139): site time takes the value, the
divider restarts and the clock is SET. With every deadline after the value nothing else changes. A lease expiry passed
alone lapses its holding with the deadline's own second as event time, while site time is the new value, and the scan of
its pool runs, granting whom it can with leases from the new site time. Of a lease
expiry and the wait deadline of the one waiter of its pool, both passed, the earlier is handled first: the waiter is
granted what the lapse refunds, with a lease from the new site time and the lapse's second as event time, or it has
ended before. A lease expiry that the last advance reached and that still waits is handled before the step, its scan's
lease counted from that second (R135, R141); that it can still wait is the model's choice (assumption 8). -/
def Obligations.SetTimeStepsForward : Prop :=
  ∀ (s : State) (rest : List Frame) (tag hi lo : Word), Taking s [0x2004#16, tag, hi, lo] rest → s.admen = true →
    s.atOnce = [] →
    let v := value32 hi lo
    let stepped (x : State) (detail : Nat) : State :=
      { answered x rest (reply 0x20#8 tag 0x00#8 detail (two v)) with
        siteTime := v
        timeState := .set
        divider := 0 }
    (s.reached = [] → (∀ d ∈ s.deadlines, v < d.second) →
      (s.timeState = .unset → exec .setTime s = .next (stepped s 0))
      ∧ (s.timeState = .set → s.siteTime < v → exec .setTime s = .next (stepped s 1)))
    ∧ ∀ i sec, TablesOk s → s.timeState = .set → s.siteTime < v →
        let h := s.holding i
        let reason : HoldingEnd :=
          if (s.feature h.feature).bind Feature.endInstant = some sec then .featureEnd else .lease
        let lapsed : Holding :=
          { h with state := .lapsed, refs := 0, deadline := 0, endReason := some reason, eventTime := sec }
        let passed := s.deadlines.filter (fun d => decide (d.second ≤ v))
        h.state = .live → NoDrain s i →
        (s.reached = [] → passed = [⟨sec, .leaseExpiry, i⟩] →
          (NoOneServed s h.pool → exec .setTime s = .next (leftCounted (stepped s 1) i sec lapsed))
          ∧ ∀ t, Scanned (leftCounted (stepped s 1) i sec lapsed) h.pool sec t → exec .setTime s = .next t)
        ∧ (∀ j k sec' f, s.reached = [] → passed = [⟨sec, .leaseExpiry, i⟩, ⟨sec', .waitDeadline, j⟩] →
            s.service = .opened → (s.pool h.pool).queue = [j] → (s.waiter j).state = .waiting →
            s.feature (s.waiter j).feature = some f → f.pool = h.pool →
            let refunded := leftCounted (stepped s 1) i sec lapsed
            let ended : Waiter :=
              { s.waiter j with
                state := .ended
                deadline := 0
                endReason := some (if f.endInstant = some sec' then .expired else .timeout)
                eventTime := sec' }
            let waiterGone : State :=
              { stepped s 1 with
                pools := tablePut Pool.initial s.pools h.pool { s.pool h.pool with queue := [] }
                waiters := tablePut Waiter.initial s.waiters j ended }
            (sec < sec' → Serves refunded h.pool j k f →
              exec .setTime s = .next (granted refunded h.pool j k f sec))
            ∧ (sec' < sec → exec .setTime s = .next (leftCounted waiterGone i sec lapsed)))
        ∧ (∀ j k f, s.reached = [⟨sec, .leaseExpiry, i⟩] → s.service = .opened →
            let refunded := leftCounted s i sec lapsed
            let served := granted refunded h.pool j k f sec
            Serves refunded h.pool j k f → (∀ d ∈ served.deadlines, v < d.second) →
            exec .setTime s = .next (stepped served 1))

/-- A backward step (R140): TIME_BACKWARD with detail 1 while a holding entry is not FREE, or else with detail 2 while a
waiter entry is not FREE, the reply carrying the present site time; otherwise site time takes the lower value, the
divider restarts, and each end instant that now lies ahead is lodged again. Nothing else changes. That an end instant
reached by the last advance and not yet taken is among those lodged again is the model's choice (assumption 8). -/
def Obligations.SetTimeStepsBackOnlyWhenAllIsFree : Prop :=
  ∀ (s : State) (rest : List Frame) (tag hi lo : Word), Taking s [0x2004#16, tag, hi, lo] rest → TablesOk s →
    let v := value32 hi lo
    let held := ∃ i, (s.holding i).state ≠ .free
    let waited := ∃ j, (s.waiter j).state ≠ .free
    s.admen = true → s.timeState = .set → v < s.siteTime →
    (held → exec .setTime s = .next (answered s rest (reply 0x20#8 tag 0x36#8 1 (two s.siteTime))))
    ∧ (¬held → waited → exec .setTime s = .next (answered s rest (reply 0x20#8 tag 0x36#8 2 (two s.siteTime))))
    ∧ (¬held → ¬waited →
      exec .setTime s =
        .next { answered s rest (reply 0x20#8 tag 0x00#8 3 (two v)) with
          siteTime := v
          divider := 0
          features := s.features.map (fun e =>
            (e.1,
              if e.2.endDay.any (fun d => decide (v < (d + 1) * 86400)) then { e.2 with endLodged := true } else e.2))
          reached := s.reached.filter (fun d => !(d.kind == .featureEnd && decide (v < d.second))) })

/-! ### The service state and the scans -/

/-- Open Service and Close Service (R2, R3, R113 to R116, R119). Opening is refused with TIME_UNSET before the first Set
Time, and changes nothing when OPEN. Otherwise the service is OPEN and each pool that is not over is scanned. A scan
passes over, and leaves in place, a waiter whose feature's end instant has come, whose merge would pass 65535
references, or whose cost would pass its project's cap; it stops at a waiter whose cost exceeds the headroom; and it
stops at one that no entry can be had for, which sets the entry-starved mark. The mark is otherwise clear, and nothing
else changes where no pool's scan comes to a waiter that it can grant. Closing touches the service state alone. -/
def Obligations.ServiceOpensAndCloses : Prop :=
  (∀ (s : State) (rest : List Frame) (tag : Word), Taking s [0x2102#16, tag] rest → s.admen = true → s.atOnce = [] →
    let opened (mark : Bool) : State :=
      { answered s rest (reply 0x21#8 tag 0x00#8 0 []) with service := .opened, starved := mark }
    (s.timeState = .unset → exec .openService s = turned s rest 0x21#8 tag 0x35#8 0)
    ∧ (s.timeState = .set → s.service = .opened → exec .openService s = turned s rest 0x21#8 tag 0x00#8 1)
    ∧ (s.timeState = .set → s.service = .closed →
        ((∀ p, p < 64 → (s.pool p).isOver = true ∨ GrantsNoOne s p) → exec .openService s = .next (opened false))
        ∧ ((∀ p, p < 64 → (s.pool p).isOver = true ∨ GrantsNoOne s p ∨ StopsForAnEntry s p) →
            (∃ p, p < 64 ∧ (s.pool p).isOver = false ∧ StopsForAnEntry s p) →
            exec .openService s = .next (opened true))))
  ∧ ∀ (s : State) (rest : List Frame) (tag : Word), Taking s [0x2202#16, tag] rest → s.admen = true →
      (s.service = .closed → exec .closeService s = turned s rest 0x22#8 tag 0x00#8 1)
      ∧ (s.service = .opened →
          exec .closeService s = .next { answered s rest (reply 0x22#8 tag 0x00#8 0 []) with service := .closed })

/-- The pass that opens the service, and the resumption pass that a linger end starts while the entry-starved mark is
set, clear the mark and scan every pool in ascending number (R119, R2, R73, R86). A scan visits the queue from its head,
judging each waiter by the figures as the grants before it have left them (R114). It grants a waiter behind those that
it passes over (R115, R117, R118): a new holding that fits its cap and the headroom is made as a Checkout would make it,
and pool and allotment are charged; a merge or a reattach joins the holding, charges the seats it adds, or nothing and
then without the tests of cap and headroom, and takes a reattached holding's tokens out of lingering. The waiter leaves
its queue and is GRANTED with the holding's handle, its merged flag and the event time of the scan. Nothing else
changes. At the top of the count the lease of a holding that a scan makes is reached at once, and the holding lapses
(R132, R142); a later pool of the pass can reach a LAPSED entry that a grant in an earlier pool has made (R119). That
the lapse comes as soon as the scan is complete, between the scans of the pass, is not stated by these rules: it is the
model's reading (assumption 22, DEDUCED). -/
def Obligations.OpeningGrantsTheWaiterThatFits : Prop :=
  (∀ (s : State) (rest : List Frame) (tag : Word) (p j k : Nat) (f : Feature), Taking s [0x2102#16, tag] rest →
    s.admen = true → TablesOk s → s.atOnce = [] → s.timeState = .set → s.service = .closed → p < 64 →
    (∀ q, q < 64 → q ≠ p → (s.pool q).queue = []) → Serves s p j k f →
    exec .openService s =
      .next { answered (granted s p j k f s.siteTime) rest (reply 0x21#8 tag 0x00#8 0 []) with
        service := .opened
        starved := false })
  ∧ (∀ (s : State) (i sec p j k : Nat) (f : Feature), TablesOk s → s.atOnce = [] → s.service = .opened →
    s.starved = true →
    let h := s.holding i
    let freed : State := { leftCounted s i sec (Holding.freeEntry (nextGen h.gen)) with starved := false }
    h.state = .lingering → s.reachedOf .lingerEnd i = some ⟨sec, .lingerEnd, i⟩ → NoDrain s i → p < 64 →
    (∀ q, q < 64 → q ≠ p → (freed.pool q).queue = []) → Serves freed p j k f →
    exec (.lingerEnd i) s = .next (granted freed p j k f sec))
  ∧ ∀ (s t : State) (rest : List Frame) (tag : Word), Taking s [0x2102#16, tag] rest → s.admen = true → TablesOk s →
    s.atOnce = [] → s.timeState = .set → s.service = .closed → PassMade { s with service := .opened } s.siteTime t →
    exec .openService s = .next (answered t rest (reply 0x21#8 tag 0x00#8 0 []))

/-! ### Table edits -/

/-- Define Pool, Define Project and Remove Project (R6 to R8). Define Pool sets both figures of one pool and recomputes
its over state where the capacity changed; it scans the pool where the capacity rose or over ended, and only there (R49,
R113); and it answers whether the pool is over. The project list takes a new nonzero code while it holds fewer than 128,
and gives one up that no counted holding, no WAITING waiter and no allotment names, tested in that order. Nothing else
changes. -/
def Obligations.PoolsAndProjectsAreEdited : Prop :=
  (∀ (s : State) (rest : List Frame) (tag pool capacity cap : Word),
    Taking s [0x2305#16, tag, pool, capacity, cap] rest → s.admen = true → s.atOnce = [] → TablesOk s →
    let p := pool.toNat
    let edited : Pool := { s.pool p with capacity := capacity.toNat, borrowCap := cap.toNat }
    let after := if capacity.toNat = (s.pool p).capacity then edited else withOver edited (s.reserveSum p) s.siteTime
    (64 ≤ p → exec .definePool s = turned s rest 0x23#8 tag 0x33#8 2)
    ∧ (p < 64 →
        let edit : State := { s with pools := tablePut Pool.initial s.pools p after }
        let asksScan : Prop :=
          (s.pool p).capacity < capacity.toNat ∨ ((s.pool p).isOver = true ∧ after.isOver = false)
        let done (x : State) : Host.Outcome State Fault Refusal :=
          .next (answered x rest (reply 0x23#8 tag 0x00#8 (if (x.pool p).isOver then 1 else 0) []))
        ((NoOneServed s p ∨ ¬asksScan) → exec .definePool s = done edit)
        ∧ (asksScan → ∀ t, Scanned edit p s.siteTime t → exec .definePool s = done t)))
  ∧ (∀ (s : State) (rest : List Frame) (tag code : Word), Taking s [0x2403#16, tag, code] rest → s.admen = true →
    let c := code.toNat
    (c = 0 → exec .defineProject s = turned s rest 0x24#8 tag 0x33#8 2)
    ∧ (c ≠ 0 → c ∈ s.projects → exec .defineProject s = turned s rest 0x24#8 tag 0x00#8 1)
    ∧ (c ≠ 0 → c ∉ s.projects → 128 ≤ s.projects.length → exec .defineProject s = turned s rest 0x24#8 tag 0x18#8 0)
    ∧ (c ≠ 0 → c ∉ s.projects → s.projects.length < 128 →
        exec .defineProject s =
          .next { answered s rest (reply 0x24#8 tag 0x00#8 0 []) with projects := s.projects ++ [c] }))
  ∧ ∀ (s : State) (rest : List Frame) (tag code : Word), Taking s [0x2503#16, tag, code] rest → s.admen = true →
    TablesOk s →
    let c := code.toNat
    let held := ∃ i, (s.holding i).state.counted = true ∧ (s.holding i).project = c
    let waited := ∃ j, (s.waiter j).state = .waiting ∧ (s.waiter j).project = c
    let allotted := ∃ a ∈ s.allotments, a.project = c
    (c = 0 → exec .removeProject s = turned s rest 0x25#8 tag 0x33#8 2)
    ∧ (c ≠ 0 → c ∉ s.projects → exec .removeProject s = turned s rest 0x25#8 tag 0x17#8 0)
    ∧ (c ≠ 0 → c ∈ s.projects →
        (held → exec .removeProject s = turned s rest 0x25#8 tag 0x32#8 1)
        ∧ (¬held → waited → exec .removeProject s = turned s rest 0x25#8 tag 0x32#8 2)
        ∧ (¬held → ¬waited → allotted → exec .removeProject s = turned s rest 0x25#8 tag 0x32#8 3)
        ∧ (¬held → ¬waited → ¬allotted →
            exec .removeProject s =
              .next { answered s rest (reply 0x25#8 tag 0x00#8 0 []) with projects := s.projects.erase c }))

/-- Define Allotment and Remove Allotment (R10 to R12). A new key takes the reserve and the cap it carries and the
tokens that the counted holdings of the project are charged in the pool; an existing one has its reserve and cap
replaced and keeps its used; an allotment with used tokens is not removed. The pool's over state is recomputed wherever
its reserve sum changed. A removal scans the pool, and so does a replacement that lowers the reserve, raises or removes
the cap, or ends over, and no other (R11, R12, R49, R113). Nothing else changes. -/
def Obligations.AllotmentsAreEdited : Prop :=
  (∀ (s : State) (rest : List Frame) (tag project pool reserve flag cap : Word),
    Taking s [0x2607#16, tag, project, pool, reserve, flag, cap] rest → s.admen = true → s.atOnce = [] → TablesOk s →
    let pr := project.toNat
    let p := pool.toNat
    let carried : Option Nat := if flag.toNat = 1 then some cap.toNat else none
    let replaced := s.allotments.map (fun x =>
      if x.project = pr ∧ x.pool = p then { x with reserve := reserve.toNat, cap := carried } else x)
    let charged := ((s.holdings.filter (fun e =>
      decide (e.2.state.counted = true ∧ e.2.project = pr ∧ e.2.pool = p))).map (fun e => e.2.tokens)).sum
    let overTable (sum : Nat) : Table Pool := tablePut Pool.initial s.pools p (withOver (s.pool p) sum s.siteTime)
    (pr = 0 → exec .defineAllotment s = turned s rest 0x26#8 tag 0x33#8 2)
    ∧ (pr ≠ 0 → 64 ≤ p → exec .defineAllotment s = turned s rest 0x26#8 tag 0x33#8 3)
    ∧ (pr ≠ 0 → p < 64 → 1 < flag.toNat → exec .defineAllotment s = turned s rest 0x26#8 tag 0x33#8 5)
    ∧ (pr ≠ 0 → p < 64 → flag.toNat ≤ 1 →
        (∀ a, s.allotment pr p = some a →
          let edit : State :=
            { s with
              allotments := replaced
              pools :=
                if reserve.toNat = a.reserve then s.pools
                else overTable (State.reserveSum { s with allotments := replaced } p) }
          let capEases : Prop := ∃ old, a.cap = some old ∧ ∀ new, carried = some new → old < new
          let asksScan : Prop :=
            reserve.toNat < a.reserve ∨ capEases ∨ ((s.pool p).isOver = true ∧ (edit.pool p).isOver = false)
          let done (x : State) : Host.Outcome State Fault Refusal :=
            .next (answered x rest (reply 0x26#8 tag 0x00#8 1 []))
          ((NoOneServed s p ∨ ¬asksScan) → exec .defineAllotment s = done edit)
          ∧ (asksScan → ∀ t, Scanned edit p s.siteTime t → exec .defineAllotment s = done t))
        ∧ (s.allotment pr p = none → pr ∉ s.projects →
            exec .defineAllotment s = turned s rest 0x26#8 tag 0x17#8 0)
        ∧ (s.allotment pr p = none → pr ∈ s.projects → 256 ≤ s.allotments.length →
            exec .defineAllotment s = turned s rest 0x26#8 tag 0x18#8 0)
        ∧ (s.allotment pr p = none → pr ∈ s.projects → s.allotments.length < 256 →
            exec .defineAllotment s =
              .next { answered s rest (reply 0x26#8 tag 0x00#8 0 []) with
                allotments := s.allotments ++
                  [{ project := pr, pool := p, reserve := reserve.toNat, cap := carried, used := charged }]
                pools := overTable (s.reserveSum p + reserve.toNat) })))
  ∧ ∀ (s : State) (rest : List Frame) (tag project pool : Word), Taking s [0x2704#16, tag, project, pool] rest →
    s.admen = true → s.atOnce = [] → TablesOk s →
    let pr := project.toNat
    let p := pool.toNat
    let kept := s.allotments.filter (fun x => decide ¬(x.project = pr ∧ x.pool = p))
    (pr = 0 → exec .removeAllotment s = turned s rest 0x27#8 tag 0x33#8 2)
    ∧ (pr ≠ 0 → 64 ≤ p → exec .removeAllotment s = turned s rest 0x27#8 tag 0x33#8 3)
    ∧ (pr ≠ 0 → p < 64 → s.allotment pr p = none → exec .removeAllotment s = turned s rest 0x27#8 tag 0x00#8 0)
    ∧ ∀ a, pr ≠ 0 → p < 64 → s.allotment pr p = some a →
        (0 < a.used → exec .removeAllotment s = turned s rest 0x27#8 tag 0x32#8 6)
        ∧ (a.used = 0 →
            let edit : State :=
              { s with
                allotments := kept
                pools := tablePut Pool.initial s.pools p
                  (withOver (s.pool p) (State.reserveSum { s with allotments := kept } p) s.siteTime) }
            let done (x : State) : Host.Outcome State Fault Refusal :=
              .next (answered x rest (reply 0x27#8 tag 0x00#8 1 []))
            (NoOneServed s p → exec .removeAllotment s = done edit)
            ∧ ∀ t, Scanned edit p s.siteTime t → exec .removeAllotment s = done t)

/-- Define Feature checks its fields before the tables (R14, R171): BAD_FIELD names the lowest-numbered word that holds
a failing field, and nothing else changes. -/
def Obligations.DefineFeatureNamesTheLowestFailingWord : Prop :=
  ∀ (s : State) (rest : List Frame) (tag : Word) (x : FeatureWords) (n : Nat), Taking s (x.frame tag) rest →
    s.admen = true → x.fails n → (∀ m, m < n → ¬x.fails m) →
    exec .defineFeature s = turned s rest 0x28#8 tag 0x33#8 n

/-- Define Feature whose fields pass (R14 to R16, R40, R136). On a FREE code: TABLE_FULL at 512 entries, CHAIN_FORM with
the offset of the first bad slot, or the feature created, its end instant lodged while it lies ahead. On a RETIRING code
IN_USE 4. On an ACTIVE code: IN_USE 1 or 2 for a changed pool or sharing kind with a counted holding or a WAITING
waiter, CHAIN_FORM, or the record replaced; with an unchanged end day nothing else changes. -/
def Obligations.DefineFeatureCreatesOrReplaces : Prop :=
  ∀ (s : State) (rest : List Frame) (tag : Word) (x : FeatureWords), Taking s (x.frame tag) rest → s.admen = true →
    s.atOnce = [] → TablesOk s → (∀ n, ¬x.fails n) →
    let c := x.code.toNat
    let made (detail : Nat) (f : Feature) : State :=
      { answered s rest (reply 0x28#8 tag 0x00#8 detail []) with features := tableInsert s.features c f }
    (s.feature c = none →
      (512 ≤ s.features.length → exec .defineFeature s = turned s rest 0x28#8 tag 0x18#8 0)
      ∧ (s.features.length < 512 →
          (∀ offset, x.badOffset s = some offset → exec .defineFeature s = turned s rest 0x28#8 tag 0x37#8 offset)
          ∧ (x.badOffset s = none → x.endDay = 65535#16 →
              exec .defineFeature s =
                .next { made 0 (x.record false) with reached := s.reached.filter (fun d => !d.ofFeature c) })
          ∧ (x.badOffset s = none → x.endDay ≠ 65535#16 → s.siteTime < (x.endDay.toNat + 1) * 86400 →
              exec .defineFeature s =
                .next { made 0 (x.record true) with reached := s.reached.filter (fun d => !d.ofFeature c) })
          ∧ (x.badOffset s = none → x.endDay ≠ 65535#16 → (x.endDay.toNat + 1) * 86400 ≤ s.siteTime → ¬Waited s c →
              exec .defineFeature s =
                .next { made 0 (x.record false) with reached := s.reached.filter (fun d => !d.ofFeature c) })))
    ∧ ∀ old, s.feature c = some old →
        let moved := x.pool.toNat ≠ old.pool ∨ (x.record false).sharing ≠ old.sharing
        (old.state = .retiring → exec .defineFeature s = turned s rest 0x28#8 tag 0x32#8 4)
        ∧ (old.state = .active → moved → Held s c → exec .defineFeature s = turned s rest 0x28#8 tag 0x32#8 1)
        ∧ (old.state = .active → moved → ¬Held s c → Waited s c →
            exec .defineFeature s = turned s rest 0x28#8 tag 0x32#8 2)
        ∧ (old.state = .active → (moved → ¬Held s c ∧ ¬Waited s c) →
            (∀ offset, x.badOffset s = some offset → exec .defineFeature s = turned s rest 0x28#8 tag 0x37#8 offset)
            ∧ (x.badOffset s = none → (x.record false).endDay = old.endDay →
                exec .defineFeature s = .next (made 1 (x.record old.endLodged))))

/-- Define Feature that gives an ACTIVE feature another end instant (R17, R136): each counted holding and each WAITING
waiter of the feature whose deadline lies past it has its deadline lowered to it, and no other deadline moves; the new
end instant is lodged in place of the old. A perpetual end day lowers none and lodges none. Nothing else changes. An end
instant at or before site time is reached at once, and what was lowered with it: a LIVE holding lapses with reason END,
a BORROWED one with BORROW_END, a LINGERING one goes to FREE, each with its tokens refunded, and every WAITING waiter of
the feature ends with reason EXPIRED, all with the end instant as event time. (The last clause is for pools where the
scans that this asks for find no waiter of another feature. The order of these deadlines of one second is the free value
of assumption 9, and the result does not depend on it.) -/
def Obligations.NewEndDayLowersTheDeadlinesPastIt : Prop :=
  ∀ (s : State) (rest : List Frame) (tag : Word) (x : FeatureWords) (old : Feature), Taking s (x.frame tag) rest →
    s.admen = true → s.atOnce = [] → TablesOk s → (∀ n, ¬x.fails n) →
    let c := x.code.toNat
    let e := (x.endDay.toNat + 1) * 86400
    let r := reply 0x28#8 tag 0x00#8 1 []
    let past (i : Nat) : Bool :=
      (s.holding i).state.counted && decide ((s.holding i).feature = c ∧ e < (s.holding i).deadline)
    let waits (j : Nat) : Bool := decide ((s.waiter j).state = .waiting ∧ (s.waiter j).feature = c)
    s.feature c = some old → old.state = .active → x.pool.toNat = old.pool → (x.record false).sharing = old.sharing →
    x.badOffset s = none → (x.record false).endDay ≠ old.endDay →
    (x.endDay = 65535#16 →
      exec .defineFeature s =
        .next { answered s rest r with
          features := tableInsert s.features c (x.record false)
          reached := s.reached.filter (fun d => !d.ofFeature c) })
    ∧ (x.endDay ≠ 65535#16 → s.siteTime < e →
      ∃ t, exec .defineFeature s = .next t
        ∧ (∀ i, t.holding i =
            if (s.holding i).state.counted = true ∧ (s.holding i).feature = c ∧ e < (s.holding i).deadline then
              { s.holding i with deadline := e }
            else s.holding i)
        ∧ (∀ j, t.waiter j =
            if (s.waiter j).state = .waiting ∧ (s.waiter j).feature = c ∧ e < (s.waiter j).deadline then
              { s.waiter j with deadline := e }
            else s.waiter j)
        ∧ t.reached =
            s.reached.filter (fun d =>
              !(d.ofFeature c || (d.ofHolding d.record && past d.record)
                || (d.ofWaiter d.record && waits d.record && decide (e < (s.waiter d.record).deadline))))
        ∧ { t with holdings := s.holdings, waiters := s.waiters, reached := s.reached } =
            { answered s rest r with features := tableInsert s.features c (x.record true) })
    ∧ (x.endDay ≠ 65535#16 → e ≤ s.siteTime → FeaturesHeld s → OverOk s →
      (s.service = .closed ∨ (s.starved = false ∧ ∀ j ∈ (s.pool old.pool).queue, (s.waiter j).feature = c)) →
      let q := s.pool old.pool
      let tokens (named : Holding → Bool) : Nat :=
        ((s.holdings.filter (fun y => past y.1 && named y.2)).map (fun y => y.2.tokens)).sum
      let used := q.used - tokens (fun _ => true)
      ∃ t, exec .defineFeature s = .next t
        ∧ (∀ i, t.holding i =
            let h := s.holding i
            if past i = false then h
            else if h.state = .lingering then Holding.freeEntry (nextGen h.gen)
            else
              { h with
                state := .lapsed
                refs := 0
                deadline := 0
                endReason := some (if h.state = .borrowed then .borrowEnd else .featureEnd)
                eventTime := e })
        ∧ (∀ j, t.waiter j =
            if waits j then
              { s.waiter j with state := .ended, deadline := 0, endReason := some .expired, eventTime := e }
            else s.waiter j)
        ∧ (∀ p, p ≠ old.pool → t.pool p = s.pool p)
        ∧ t.pool old.pool =
            { q with
              used := used
              borrowed := q.borrowed - tokens (fun h => h.state == .borrowed)
              lingering := q.lingering - tokens (fun h => h.state == .lingering)
              isOver := decide (q.capacity < used ∨ q.capacity < s.reserveSum old.pool)
              queue := q.queue.filter (fun j => !waits j) }
        ∧ t.allotments =
            s.allotments.map (fun a =>
              if a.pool = old.pool then { a with used := a.used - tokens (fun h => h.project == a.project) } else a)
        ∧ t.reached =
            s.reached.filter (fun d =>
              !(d.ofFeature c || (d.ofHolding d.record && past d.record) || (d.ofWaiter d.record && waits d.record)))
        ∧ { t with
            holdings := s.holdings
            waiters := s.waiters
            pools := s.pools
            allotments := s.allotments
            reached := s.reached
            choices := s.choices } =
            { answered s rest r with features := tableInsert s.features c (x.record false) })

/-- Retire Feature (R18, R20, R121): BAD_FIELD, UNKNOWN_FEATURE and RETIRED; an ACTIVE feature becomes RETIRING, its
WAITING waiters and no others end with reason RETIRED at the present site time, each leaving its queue, and it drains at
once, with a drained-feature record, where it has no counted holding. No holding and no account changes. -/
def Obligations.RetireFeatureEndsItsWaiters : Prop :=
  ∀ (s : State) (rest : List Frame) (tag code : Word), Taking s [0x2903#16, tag, code] rest → s.admen = true →
    s.atOnce = [] → TablesOk s →
    let c := code.toNat
    let waits (j : Nat) : Bool := decide ((s.waiter j).state = .waiting ∧ (s.waiter j).feature = c)
    (c = 0 → exec .retireFeature s = turned s rest 0x29#8 tag 0x33#8 2)
    ∧ (c ≠ 0 → s.feature c = none → exec .retireFeature s = turned s rest 0x29#8 tag 0x12#8 0)
    ∧ ∀ f, c ≠ 0 → s.feature c = some f →
        (f.state = .retiring → exec .retireFeature s = turned s rest 0x29#8 tag 0x13#8 0)
        ∧ (f.state = .active →
            ∃ t r, exec .retireFeature s = .next t
              ∧ (∀ j, t.waiter j =
                  if (s.waiter j).state = .waiting ∧ (s.waiter j).feature = c then
                    { s.waiter j with state := .ended, deadline := 0, endReason := some .retired,
                                      eventTime := s.siteTime }
                  else s.waiter j)
              ∧ (t.pool f.pool).queue =
                  (s.pool f.pool).queue.filter (fun j =>
                    decide ¬((s.waiter j).state = .waiting ∧ (s.waiter j).feature = c))
              ∧ (∀ p, { t.pool p with queue := [] } = { s.pool p with queue := [] })
              ∧ (∀ p, p ≠ f.pool → t.pool p = s.pool p)
              ∧ (∀ k, k ≠ c → t.feature k = s.feature k)
              ∧ (Held s c → t.feature c = some { f with state := .retiring } ∧ t.drained = s.drained
                  ∧ t.reached = s.reached.filter (fun d => !(d.ofWaiter d.record && waits d.record))
                  ∧ r = reply 0x29#8 tag 0x00#8 0 [])
              ∧ (¬Held s c → t.feature c = none ∧ { feature := c, eventTime := s.siteTime } ∈ t.drained
                  ∧ (DrainedOrdered s → t.drained = listedWith s.drained { feature := c, eventTime := s.siteTime })
                  ∧ t.reached =
                      s.reached.filter (fun d => !(d.ofFeature c || (d.ofWaiter d.record && waits d.record)))
                  ∧ r = reply 0x29#8 tag 0x00#8 1 [])
              ∧ (∀ d ∈ t.drained, d = { feature := c, eventTime := s.siteTime } ∨ d ∈ s.drained)
              ∧ { t with
                  waiters := s.waiters
                  pools := s.pools
                  features := s.features
                  drained := s.drained
                  reached := s.reached } = answered s rest r)

/-- Write Terms (R42, R43, R173), in its order of checks: a run past slot 2047, or a first slot above it, names word 2;
a badly coded slot names the word it begins in; a slot in use is refused with IN_USE 7; otherwise exactly the slots of
the run take the contents that their words mean, and the detail counts them. Nothing else changes. -/
def Obligations.WriteTermsReplacesTheRun : Prop :=
  ∀ (s : State) (rest : List Frame) (tag first : Word) (slots : List (Word × Word)),
    Taking s (termsFrame tag first slots) rest → s.admen = true → TablesOk s → 1 ≤ slots.length → slots.length ≤ 18 →
    let a := first.toNat
    let n := slots.length
    (2048 < a + n → exec .writeTerms s = turned s rest 0x2B#8 tag 0x33#8 2)
    ∧ (∀ k p, a + n ≤ 2048 → slots[k]? = some p → badlyCoded p.1 →
        (∀ m q, m < k → slots[m]? = some q → ¬badlyCoded q.1) →
        exec .writeTerms s = turned s rest 0x2B#8 tag 0x33#8 (3 + 2 * k))
    ∧ (a + n ≤ 2048 → (∀ p ∈ slots, ¬badlyCoded p.1) → (∃ k, a ≤ k ∧ k < a + n ∧ InUse s k) →
        exec .writeTerms s = turned s rest 0x2B#8 tag 0x32#8 7)
    ∧ (a + n ≤ 2048 → (∀ p ∈ slots, ¬badlyCoded p.1) → (∀ k, a ≤ k → k < a + n → ¬InUse s k) →
        ∃ t, exec .writeTerms s = .next t
          ∧ (∀ k p, slots[k]? = some p → t.slot (a + k) = slotMeant p.1 p.2)
          ∧ (∀ k, (k < a ∨ a + n ≤ k) → t.slot k = s.slot k)
          ∧ { t with terms := s.terms } = answered s rest (reply 0x2B#8 tag 0x00#8 n []))

/-- Define User, Define Host and Set Notice Levels (R23, R25, R146, R171): the field checks, the lowest failing word
first; an entry removed, replaced or added, or TABLE_FULL; and all ten notice values replaced at once and answered as
they now stand. Nothing else changes. That the highest class is checked also where standing is absent, and a host's
class also where its presence flag is clear, is the model's reading (assumption 16). -/
def Obligations.DirectoriesAndLevelsAreEdited : Prop :=
  (∀ (s : State) (rest : List Frame) (tag user groups standing highest : Word),
    Taking s [0x2C06#16, tag, user, groups, standing, highest] rest → s.admen = true →
    let u := user.toNat
    let passes := u ≠ 0 ∧ standing.toNat ≤ 2 ∧ highest.toNat ≤ 3
    let entry : User :=
      { groups := groups, standing := if standing.toNat = 1 then .enabled else .barred, highest := highest.toNat }
    let known := if s.user u = none then 0 else 1
    (u = 0 → exec .defineUser s = turned s rest 0x2C#8 tag 0x33#8 2)
    ∧ (u ≠ 0 → 2 < standing.toNat → exec .defineUser s = turned s rest 0x2C#8 tag 0x33#8 4)
    ∧ (u ≠ 0 → standing.toNat ≤ 2 → 3 < highest.toNat → exec .defineUser s = turned s rest 0x2C#8 tag 0x33#8 5)
    ∧ (passes → standing.toNat = 0 →
        exec .defineUser s =
          .next { answered s rest (reply 0x2C#8 tag 0x00#8 known []) with users := tableErase s.users u })
    ∧ (passes → standing.toNat ≠ 0 → s.user u = none → 4096 ≤ s.users.length →
        exec .defineUser s = turned s rest 0x2C#8 tag 0x18#8 0)
    ∧ (passes → standing.toNat ≠ 0 → (s.user u ≠ none ∨ s.users.length < 4096) →
        exec .defineUser s =
          .next { answered s rest (reply 0x2C#8 tag 0x00#8 known []) with users := tableInsert s.users u entry }))
  ∧ (∀ (s : State) (rest : List Frame) (tag host cls flag : Word), Taking s [0x2D05#16, tag, host, cls, flag] rest →
    s.admen = true →
    let h := host.toNat
    let passes := h ≠ 0 ∧ cls.toNat ≤ 15 ∧ flag.toNat ≤ 1
    let known := if tableFind s.hosts h = none then 0 else 1
    (h = 0 → exec .defineHost s = turned s rest 0x2D#8 tag 0x33#8 2)
    ∧ (h ≠ 0 → 15 < cls.toNat → exec .defineHost s = turned s rest 0x2D#8 tag 0x33#8 3)
    ∧ (h ≠ 0 → cls.toNat ≤ 15 → 1 < flag.toNat → exec .defineHost s = turned s rest 0x2D#8 tag 0x33#8 4)
    ∧ (passes → flag.toNat = 0 →
        exec .defineHost s =
          .next { answered s rest (reply 0x2D#8 tag 0x00#8 known []) with hosts := tableErase s.hosts h })
    ∧ (passes → flag.toNat = 1 → tableFind s.hosts h = none → 1024 ≤ s.hosts.length →
        exec .defineHost s = turned s rest 0x2D#8 tag 0x18#8 0)
    ∧ (passes → flag.toNat = 1 → (tableFind s.hosts h ≠ none ∨ s.hosts.length < 1024) →
        exec .defineHost s =
          .next { answered s rest (reply 0x2D#8 tag 0x00#8 known []) with hosts := tableInsert s.hosts h cls.toNat }))
  ∧ ∀ (s : State) (rest : List Frame) (tag a b c d e : Word), Taking s [0x2E07#16, tag, a, b, c, d, e] rest →
    s.admen = true →
    let bad (w : Word) : Prop := 3 < w.toNat / 256 ∨ 1 < w.toNat % 256
    let setting (w : Word) : NoticeSetting := ⟨w.toNat / 256, decide (w.toNat % 256 = 1)⟩
    (bad a → exec .setNoticeLevels s = turned s rest 0x2E#8 tag 0x33#8 2)
    ∧ (¬bad a → bad b → exec .setNoticeLevels s = turned s rest 0x2E#8 tag 0x33#8 3)
    ∧ (¬bad a → ¬bad b → bad c → exec .setNoticeLevels s = turned s rest 0x2E#8 tag 0x33#8 4)
    ∧ (¬bad a → ¬bad b → ¬bad c → bad d → exec .setNoticeLevels s = turned s rest 0x2E#8 tag 0x33#8 5)
    ∧ (¬bad a → ¬bad b → ¬bad c → ¬bad d → bad e → exec .setNoticeLevels s = turned s rest 0x2E#8 tag 0x33#8 6)
    ∧ (¬bad a → ¬bad b → ¬bad c → ¬bad d → ¬bad e →
        exec .setNoticeLevels s =
          .next { answered s rest (reply 0x2E#8 tag 0x00#8 0 [a, b, c, d, e]) with
            notices :=
              { grant := setting a, waitEnd := setting b, lapse := setting c, poolOver := setting d,
                drained := setting e } })

/-- Clear Holdings (R24, R61): IN_USE 5 while OPEN; while CLOSED every entry that is not FREE goes to FREE and its
generation advances, queues and figures are emptied, each over state follows the reserve sum alone, RETIRING features
drain at the present site time in ascending code, their records joining the drained list, whose own records stay within
its 512 (R20), and the entry-starved mark clears. Of the deadlines the end instants of ACTIVE features stay (R131).
Everything else stays. -/
def Obligations.ClearHoldingsKeepsTheTerms : Prop :=
  ∀ (s : State) (rest : List Frame) (tag : Word), Taking s [0x2F02#16, tag] rest → s.admen = true → s.atOnce = [] →
    TablesOk s →
    let drains := (s.features.filter (fun e => e.2.state == .retiring)).map (fun e => e.1)
    (s.service = .opened → exec .clearHoldings s = turned s rest 0x2F#8 tag 0x32#8 5)
    ∧ (s.service = .closed →
        ∃ t, exec .clearHoldings s = .next t
          ∧ (∀ i, t.holding i =
              if (s.holding i).state = .free then s.holding i
              else Holding.freeEntry (nextGen (s.holding i).gen))
          ∧ (∀ j, t.waiter j =
              if (s.waiter j).state = .free then s.waiter j else Waiter.freeEntry (nextGen (s.waiter j).gen))
          ∧ (∀ p, p < 64 → t.pool p =
              withOver { s.pool p with used := 0, borrowed := 0, lingering := 0, queue := [] } (s.reserveSum p)
                s.siteTime)
          ∧ t.allotments = s.allotments.map (fun a => { a with used := 0 })
          ∧ (∀ c, t.feature c = (s.feature c).filter (fun f => decide (f.state = .active)))
          ∧ (s.drained.length + drains.length ≤ 512 →
              (∀ d ∈ s.drained, d ∈ t.drained) ∧ ∀ c ∈ drains, { feature := c, eventTime := s.siteTime } ∈ t.drained)
          ∧ (∀ d ∈ t.drained, d ∈ s.drained ∨ (d.eventTime = s.siteTime ∧ d.feature ∈ drains))
          ∧ (DrainedOrdered s →
              t.drained = drains.foldl (fun l c => listedWith l { feature := c, eventTime := s.siteTime }) s.drained)
          ∧ t.reached =
              s.reached.filter (fun d =>
                d.kind == .featureEnd && (s.feature d.record).all (fun f => f.state == .active))
          ∧ { t with
              holdings := s.holdings
              waiters := s.waiters
              pools := s.pools
              allotments := s.allotments
              features := s.features
              drained := s.drained
              reached := s.reached } =
              { answered s rest (reply 0x2F#8 tag 0x00#8 0 []) with starved := false })

/-! ### Rule chains -/

/-- The verdict on a Checkout (R28 to R36): a feature without a chain admits it; the chain at a start admits it exactly
where the verdict after its last slot is true; and one it does not let in, which has passed every check before, is
refused DENIED_RULE with the deciding offset, the last at which the verdict took the value false. -/
def Obligations.RuleChainGivesTheVerdict : Prop :=
  ∀ (s : State) (f : Feature), TablesOk s → EntriesOk s →
    (∀ a, f.chain = none → (s.verdict f (s.ruleInputs a)).1 = true)
    ∧ (∀ a start, f.chain = some start → s.chainFault start = none →
        ((s.verdict f (s.ruleInputs a)).1 = true ↔ VerdictAfter s a start (s.chainLength start)))
    ∧ ∀ (rest : List Frame) (tag feature user host project seats wait cls : Word) (start d : Nat),
        Taking s (checkoutFrame tag feature user host project seats wait cls) rest →
        let a := asked s feature user host project seats cls
        s.service = .opened → FieldsPass a → s.feature a.feature = some f → Licensed f s.siteTime →
        ¬Barred s a.user → (a.project = 0 ∨ a.project ∈ s.projects) → f.chain = some start →
        s.chainFault start = none → ¬VerdictAfter s a start (s.chainLength start) →
        d < s.chainLength start → TakesFalse s a start d →
        (∀ m, d < m → m < s.chainLength start → ¬TakesFalse s a start m) →
        exec .checkout s = .next (answered s rest [0x0103#16, tag, outcome 0x11#8 d])

/-- The form check (R27, R38, R39) passes exactly the starts of well-formed chains, of which the run of slots is the
chain, and otherwise reports the offset of the first bad slot. -/
def Obligations.FormCheckFindsTheFirstBadSlot : Prop :=
  ∀ (s : State) (start : Nat),
    (s.chainFault start = none ↔ ∃ n, WellFormedChain s start n)
    ∧ (∀ n, WellFormedChain s start n → s.chainLength start = n)
    ∧ ∀ d, s.chainFault start = some d ↔ FirstBad s start d

/-! ### What every step keeps -/

/-- The state after device reset meets every invariant of Safety. -/
def Obligations.ResetMeetsEveryInvariant : Prop :=
  LinkOk State.reset ∧ ClockOk State.reset ∧ TablesOk State.reset ∧ CapacitiesOk State.reset ∧ EntriesOk State.reset
  ∧ FeaturesHeld State.reset ∧ BooksOk State.reset ∧ OverOk State.reset ∧ QueuesOk State.reset ∧ KeysOk State.reset
  ∧ TimelyOk State.reset ∧ ClampOk State.reset ∧ ChainsOk State.reset ∧ DrainedOrdered State.reset

/-- Every step keeps the link within its bounds and its frames whole (R158, R160, R166, R170), site time and the divider
within theirs (R128, R129), and every table in its form and within its capacity (R7, R9, R13, R20, R22, R25); and it
keeps the drained list in its order (R20, R147). -/
def Obligations.StepsKeepLinkClockAndTables : Prop :=
  ∀ s t : State, step s = .next t →
    (LinkOk s → ClockOk s → TablesOk s → CapacitiesOk s → LinkOk t ∧ ClockOk t ∧ TablesOk t ∧ CapacitiesOk t)
    ∧ (DrainedOrdered s → DrainedOrdered t)

/-- Every step handles all that it reaches at once, and leaves no deadline at or before site time but those that the
last advance reached, which wait for their own steps (R131, R132, R139). That they wait in `reached` is the model's
choice (assumption 8). -/
def Obligations.StepsLeaveDeadlinesAheadOrReached : Prop :=
  ∀ s t : State, TablesOk s → TimelyOk s → step s = .next t → TimelyOk t

/-- Every step keeps the generations within 1 to 255 and the references in agreement with the states (R64 to R66,
R106), every counted holding with a feature whose pool it lies in (R16, R20), and each queue with the WAITING waiters
of its pool's features, all ACTIVE, each once and by falling class (R18, R109, R110). -/
def Obligations.StepsKeepEntriesAndQueues : Prop :=
  ∀ s t : State, TablesOk s → s.atOnce = [] → EntriesOk s → FeaturesHeld s → QueuesOk s → step s = .next t →
    EntriesOk t ∧ FeaturesHeld t ∧ QueuesOk t

/-- The law of the books (R44, R45, R47): every step leaves each pool's used, borrowed and lingering, and each
allotment's used, equal to the sums over the holdings, and each over state to its condition. -/
def Obligations.StepsKeepTheBooksBalanced : Prop :=
  ∀ s t : State, TablesOk s → s.atOnce = [] → EntriesOk s → FeaturesHeld s → QueuesOk s → BooksOk s → OverOk s →
    step s = .next t → BooksOk t ∧ OverOk t

/-- Every step keeps merge keys distinct (R68): for a feature of sharing kind USER or STATION no two LIVE or LINGERING
holdings share one. -/
def Obligations.StepsKeepMergeKeysDistinct : Prop :=
  ∀ s t : State, TablesOk s → s.atOnce = [] → EntriesOk s → FeaturesHeld s → QueuesOk s → KeysOk s →
    step s = .next t → KeysOk t

/-- Every step keeps the clamp (R134): no deadline of a counted holding or a WAITING waiter lies past its feature's end
instant or past the top of site time. -/
def Obligations.StepsKeepDeadlinesClamped : Prop :=
  ∀ s t : State, TablesOk s → s.atOnce = [] → EntriesOk s → FeaturesHeld s → QueuesOk s → ClampOk s →
    step s = .next t → ClampOk t

/-- The law of chains (R41): every step leaves every ACTIVE or RETIRING feature that has a chain start pointing to a
well-formed chain. -/
def Obligations.StepsKeepTheLawOfChains : Prop :=
  ∀ s t : State, TablesOk s → ChainsOk s → step s = .next t → ChainsOk t

/-- Site time never runs backward while a holding or waiter entry is not FREE (R140): only a device reset makes an
exception. -/
def Obligations.SiteTimeNeverFallsWhileAnEntryIsUsed : Prop :=
  ∀ s t : State, ClockOk s → SomeEntryUsed s →
    (∀ c rest, s.pending = c :: rest → c ≠ .deviceReset ∧ c ≠ .resetRelease) →
    step s = .next t → s.siteTime ≤ t.siteTime

/-- While the service is CLOSED no waiter is granted (R1, R113): of all commands only Open Service can turn a WAITING
waiter into a GRANTED one. -/
def Obligations.NoWaiterIsGrantedWhileClosed : Prop :=
  ∀ (s t : State) (j : Nat), s.service = .closed → (s.waiter j).state = .waiting →
    (∀ rest, s.pending ≠ .openService :: rest) → step s = .next t → (t.waiter j).state ≠ .granted
end

