-- ==== Sys2Proof/Laws/Table.lean ====
section
/-! SUPPORT. The laws of tables: what stands under a number after each operation, and that each keeps the canonical
form. -/

namespace Sys2Proof.Machine

variable {α : Type}

/-! ### What stands under a number -/

theorem tableFind_insert (t : Table α) (k i : Nat) (v : α) :
    tableFind (tableInsert t k v) i = if i = k then some v else tableFind t i := by
  induction t with
  | nil => simp [tableInsert, tableFind, eq_comm]
  | cons e t ih =>
    obtain ⟨j, w⟩ := e
    simp only [tableInsert]
    split_ifs with h1 h2 h3 h4 <;> simp_all [tableFind] <;> grind

@[simp] theorem tableFind_insert_same (t : Table α) (k : Nat) (v : α) : tableFind (tableInsert t k v) k = some v := by
  simp [tableFind_insert]

theorem tableFind_insert_other (t : Table α) {k i : Nat} (v : α) (h : i ≠ k) :
    tableFind (tableInsert t k v) i = tableFind t i := by
  simp [tableFind_insert, h]

theorem tableFind_erase (t : Table α) (k i : Nat) :
    tableFind (tableErase t k) i = if i = k then none else tableFind t i := by
  induction t with
  | nil => simp [tableErase, tableFind]
  | cons e t ih =>
    obtain ⟨j, w⟩ := e
    simp only [tableErase] at ih ⊢
    by_cases h : j = k <;> simp_all [tableFind] <;> grind

@[simp] theorem tableFind_erase_same (t : Table α) (k : Nat) : tableFind (tableErase t k) k = none := by
  simp [tableFind_erase]

section Defaults

variable [DecidableEq α]

theorem tableGet_put (d : α) (t : Table α) (k i : Nat) (v : α) :
    tableGet d (tablePut d t k v) i = if i = k then v else tableGet d t i := by
  unfold tableGet tablePut
  split_ifs with h1 h2 <;> simp_all [tableFind_erase, tableFind_insert]

@[simp] theorem tableGet_put_same (d : α) (t : Table α) (k : Nat) (v : α) : tableGet d (tablePut d t k v) k = v := by
  simp [tableGet_put]

theorem tableGet_put_other (d : α) (t : Table α) {k i : Nat} (v : α) (h : i ≠ k) :
    tableGet d (tablePut d t k v) i = tableGet d t i := by
  simp [tableGet_put, h]

end Defaults

@[simp] theorem tableGet_nil (d : α) (i : Nat) : tableGet d [] i = d := rfl

@[simp] theorem tableFind_nil (i : Nat) : tableFind ([] : Table α) i = none := rfl

/-! ### Membership -/

theorem mem_of_tableFind {t : Table α} {i : Nat} {v : α} (h : tableFind t i = some v) : (i, v) ∈ t := by
  induction t with
  | nil => simp [tableFind] at h
  | cons e t ih =>
    obtain ⟨j, w⟩ := e
    simp only [tableFind] at h
    split_ifs at h with hj
    · simp_all
    · exact List.mem_cons_of_mem _ (ih h)

theorem tableFind_of_mem {t : Table α} (ht : TableRising t) {i : Nat} {v : α} (h : (i, v) ∈ t) :
    tableFind t i = some v := by
  induction t with
  | nil => simp at h
  | cons e t ih =>
    obtain ⟨j, w⟩ := e
    obtain ⟨hj, ht⟩ := List.pairwise_cons.mp ht
    rcases List.mem_cons.mp h with h | h
    · simp_all [tableFind]
    · have hji := hj _ h
      simp only at hji
      rw [tableFind, if_neg (by omega), ih ht h]

theorem mem_iff_tableFind {t : Table α} (ht : TableRising t) {i : Nat} {v : α} :
    (i, v) ∈ t ↔ tableFind t i = some v :=
  ⟨tableFind_of_mem ht, mem_of_tableFind⟩

/-! ### Rising numbers -/

theorem mem_tableInsert {t : Table α} {k : Nat} {v : α} {e : Nat × α} (h : e ∈ tableInsert t k v) :
    e = (k, v) ∨ e ∈ t := by
  induction t with
  | nil => simpa [tableInsert] using h
  | cons x t ih =>
    obtain ⟨j, w⟩ := x
    simp only [tableInsert] at h
    split_ifs at h <;> simp_all <;> tauto

theorem tableInsert_rising {t : Table α} (ht : TableRising t) (k : Nat) (v : α) : TableRising (tableInsert t k v) := by
  induction t with
  | nil => simp [tableInsert]
  | cons x t ih =>
    obtain ⟨j, w⟩ := x
    obtain ⟨hj, ht'⟩ := List.pairwise_cons.mp ht
    simp only [tableInsert]
    split_ifs with h1 h2
    · refine List.pairwise_cons.mpr ⟨?_, List.pairwise_cons.mpr ⟨hj, ht'⟩⟩
      intro e he
      rcases List.mem_cons.mp he with rfl | he
      · exact h1
      · exact lt_trans h1 (hj e he)
    · subst h2
      exact List.pairwise_cons.mpr ⟨hj, ht'⟩
    · refine List.pairwise_cons.mpr ⟨?_, ih ht'⟩
      intro e he
      rcases mem_tableInsert he with rfl | he
      · simp only
        omega
      · exact hj e he

theorem tableErase_rising {t : Table α} (ht : TableRising t) (k : Nat) : TableRising (tableErase t k) :=
  List.Pairwise.filter _ ht

/-! ### The canonical form -/

section Canonical

variable [DecidableEq α]

theorem tablePut_canonical {d : α} {t : Table α} (ht : TableCanonical d t) (k : Nat) (v : α) :
    TableCanonical d (tablePut d t k v) := by
  unfold tablePut
  split_ifs with h
  · exact ⟨tableErase_rising ht.1 k, fun e he => ht.2 e (List.mem_filter.mp he).1⟩
  · refine ⟨tableInsert_rising ht.1 k v, fun e he => ?_⟩
    rcases mem_tableInsert he with rfl | he
    · exact h
    · exact ht.2 e he

theorem tableMap_canonical {d : α} {t : Table α} (ht : TableRising t) (g : α → α) :
    TableCanonical d (tableMap d t g) := by
  refine ⟨List.Pairwise.filter _ (List.pairwise_map.mpr ht), fun e he => ?_⟩
  simpa using (List.mem_filter.mp he).2

theorem canonical_nil (d : α) : TableCanonical d ([] : Table α) := ⟨List.Pairwise.nil, by simp⟩

end Canonical

/-! ### Two tables in canonical form with the same contents are one table -/

theorem rising_ext {t u : Table α} (ht : TableRising t) (hu : TableRising u)
    (h : ∀ i, tableFind t i = tableFind u i) : t = u := by
  induction t generalizing u with
  | nil =>
    cases u with
    | nil => rfl
    | cons e u => simpa [tableFind] using h e.1
  | cons e t ih =>
    obtain ⟨j, w⟩ := e
    obtain ⟨hj, ht'⟩ := List.pairwise_cons.mp ht
    cases u with
    | nil => simpa [tableFind] using h j
    | cons e' u =>
      obtain ⟨k, x⟩ := e'
      obtain ⟨hk, hu'⟩ := List.pairwise_cons.mp hu
      have hjk : j = k := by
        have hju : (j, w) ∈ (k, x) :: u := mem_of_tableFind ((h j).symm.trans (by simp [tableFind]))
        have hkt : (k, x) ∈ (j, w) :: t := mem_of_tableFind ((h k).trans (by simp [tableFind]))
        rcases List.mem_cons.mp hju with h1 | h1
        · exact (Prod.mk.injEq _ _ _ _ ▸ h1).1
        · rcases List.mem_cons.mp hkt with h2 | h2
          · exact ((Prod.mk.injEq _ _ _ _ ▸ h2).1).symm
          · have := hk _ h1
            have := hj _ h2
            simp only at *
            omega
      subst hjk
      have hwx : w = x := by simpa [tableFind] using h j
      subst hwx
      have hrest : t = u := by
        refine ih ht' hu' fun i => ?_
        by_cases hi : j = i
        · subst hi
          have none_of : ∀ {v : Table α}, (∀ e ∈ v, (j, w).1 < e.1) → tableFind v j = none := by
            intro v hv
            cases hf : tableFind v j with
            | none => rfl
            | some y => exact absurd (hv _ (mem_of_tableFind hf)) (by simp)
          rw [none_of hj, none_of hk]
        · simpa [tableFind, hi] using h i
      rw [hrest]

/-- In a rising table a second write under a number leaves no trace of the first. -/
theorem tablePut_put [DecidableEq α] {d : α} {t : Table α} (ht : TableCanonical d t) (k : Nat) (v w : α) :
    tablePut d (tablePut d t k v) k w = tablePut d t k w := by
  refine rising_ext (tablePut_canonical (tablePut_canonical ht k v) k w).1 (tablePut_canonical ht k w).1 fun i => ?_
  unfold tablePut
  split_ifs <;> by_cases hi : i = k <;> simp_all [tableFind_erase, tableFind_insert]

end Sys2Proof.Machine
end

