-- ==== Sys2Proof/Laws/State.lean ====
section
/-! SUPPORT. One lemma per field per update of State: what each update leaves as it was, and what it writes. -/

namespace Sys2Proof.Machine

variable (s : State) (i j k p code pool project tokens cls evt : Nat) (h : Holding) (w : Waiter) (q : Pool)
  (f : Feature) (d : Drained) (r : Frame) (named : Deadline → Bool) (g : Allotment → Allotment)
  (u : Nat → Nat) (dl : Deadline) (frames : List Frame)

/-! ### setHolding -/

@[simp] theorem setHolding_resetLow : (s.setHolding i h).resetLow = s.resetLow := rfl
@[simp] theorem setHolding_admen : (s.setHolding i h).admen = s.admen := rfl
@[simp] theorem setHolding_sdo : (s.setHolding i h).sdo = s.sdo := rfl
@[simp] theorem setHolding_sdoBits : (s.setHolding i h).sdoBits = s.sdoBits := rfl
@[simp] theorem setHolding_fifo : (s.setHolding i h).fifo = s.fifo := rfl
@[simp] theorem setHolding_replies : (s.setHolding i h).replies = s.replies := rfl
@[simp] theorem setHolding_overrun : (s.setHolding i h).overrun = s.overrun := rfl
@[simp] theorem setHolding_framing : (s.setHolding i h).framing = s.framing := rfl
@[simp] theorem setHolding_service : (s.setHolding i h).service = s.service := rfl
@[simp] theorem setHolding_features : (s.setHolding i h).features = s.features := rfl
@[simp] theorem setHolding_pools : (s.setHolding i h).pools = s.pools := rfl
@[simp] theorem setHolding_projects : (s.setHolding i h).projects = s.projects := rfl
@[simp] theorem setHolding_allotments : (s.setHolding i h).allotments = s.allotments := rfl
@[simp] theorem setHolding_users : (s.setHolding i h).users = s.users := rfl
@[simp] theorem setHolding_hosts : (s.setHolding i h).hosts = s.hosts := rfl
@[simp] theorem setHolding_drained : (s.setHolding i h).drained = s.drained := rfl
@[simp] theorem setHolding_terms : (s.setHolding i h).terms = s.terms := rfl
@[simp] theorem setHolding_starved : (s.setHolding i h).starved = s.starved := rfl
@[simp] theorem setHolding_waiters : (s.setHolding i h).waiters = s.waiters := rfl
@[simp] theorem setHolding_siteTime : (s.setHolding i h).siteTime = s.siteTime := rfl
@[simp] theorem setHolding_timeState : (s.setHolding i h).timeState = s.timeState := rfl
@[simp] theorem setHolding_divider : (s.setHolding i h).divider = s.divider := rfl
@[simp] theorem setHolding_reached : (s.setHolding i h).reached = s.reached := rfl
@[simp] theorem setHolding_atOnce : (s.setHolding i h).atOnce = s.atOnce := rfl
@[simp] theorem setHolding_notices : (s.setHolding i h).notices = s.notices := rfl
@[simp] theorem setHolding_choices : (s.setHolding i h).choices = s.choices := rfl
@[simp] theorem setHolding_pending : (s.setHolding i h).pending = s.pending := rfl

/-! ### setWaiter -/

@[simp] theorem setWaiter_resetLow : (s.setWaiter j w).resetLow = s.resetLow := rfl
@[simp] theorem setWaiter_admen : (s.setWaiter j w).admen = s.admen := rfl
@[simp] theorem setWaiter_sdo : (s.setWaiter j w).sdo = s.sdo := rfl
@[simp] theorem setWaiter_sdoBits : (s.setWaiter j w).sdoBits = s.sdoBits := rfl
@[simp] theorem setWaiter_fifo : (s.setWaiter j w).fifo = s.fifo := rfl
@[simp] theorem setWaiter_replies : (s.setWaiter j w).replies = s.replies := rfl
@[simp] theorem setWaiter_overrun : (s.setWaiter j w).overrun = s.overrun := rfl
@[simp] theorem setWaiter_framing : (s.setWaiter j w).framing = s.framing := rfl
@[simp] theorem setWaiter_service : (s.setWaiter j w).service = s.service := rfl
@[simp] theorem setWaiter_features : (s.setWaiter j w).features = s.features := rfl
@[simp] theorem setWaiter_pools : (s.setWaiter j w).pools = s.pools := rfl
@[simp] theorem setWaiter_projects : (s.setWaiter j w).projects = s.projects := rfl
@[simp] theorem setWaiter_allotments : (s.setWaiter j w).allotments = s.allotments := rfl
@[simp] theorem setWaiter_users : (s.setWaiter j w).users = s.users := rfl
@[simp] theorem setWaiter_hosts : (s.setWaiter j w).hosts = s.hosts := rfl
@[simp] theorem setWaiter_drained : (s.setWaiter j w).drained = s.drained := rfl
@[simp] theorem setWaiter_terms : (s.setWaiter j w).terms = s.terms := rfl
@[simp] theorem setWaiter_starved : (s.setWaiter j w).starved = s.starved := rfl
@[simp] theorem setWaiter_holdings : (s.setWaiter j w).holdings = s.holdings := rfl
@[simp] theorem setWaiter_siteTime : (s.setWaiter j w).siteTime = s.siteTime := rfl
@[simp] theorem setWaiter_timeState : (s.setWaiter j w).timeState = s.timeState := rfl
@[simp] theorem setWaiter_divider : (s.setWaiter j w).divider = s.divider := rfl
@[simp] theorem setWaiter_reached : (s.setWaiter j w).reached = s.reached := rfl
@[simp] theorem setWaiter_atOnce : (s.setWaiter j w).atOnce = s.atOnce := rfl
@[simp] theorem setWaiter_notices : (s.setWaiter j w).notices = s.notices := rfl
@[simp] theorem setWaiter_choices : (s.setWaiter j w).choices = s.choices := rfl
@[simp] theorem setWaiter_pending : (s.setWaiter j w).pending = s.pending := rfl

/-! ### setPool -/

@[simp] theorem setPool_resetLow : (s.setPool p q).resetLow = s.resetLow := rfl
@[simp] theorem setPool_admen : (s.setPool p q).admen = s.admen := rfl
@[simp] theorem setPool_sdo : (s.setPool p q).sdo = s.sdo := rfl
@[simp] theorem setPool_sdoBits : (s.setPool p q).sdoBits = s.sdoBits := rfl
@[simp] theorem setPool_fifo : (s.setPool p q).fifo = s.fifo := rfl
@[simp] theorem setPool_replies : (s.setPool p q).replies = s.replies := rfl
@[simp] theorem setPool_overrun : (s.setPool p q).overrun = s.overrun := rfl
@[simp] theorem setPool_framing : (s.setPool p q).framing = s.framing := rfl
@[simp] theorem setPool_service : (s.setPool p q).service = s.service := rfl
@[simp] theorem setPool_features : (s.setPool p q).features = s.features := rfl
@[simp] theorem setPool_projects : (s.setPool p q).projects = s.projects := rfl
@[simp] theorem setPool_allotments : (s.setPool p q).allotments = s.allotments := rfl
@[simp] theorem setPool_users : (s.setPool p q).users = s.users := rfl
@[simp] theorem setPool_hosts : (s.setPool p q).hosts = s.hosts := rfl
@[simp] theorem setPool_drained : (s.setPool p q).drained = s.drained := rfl
@[simp] theorem setPool_terms : (s.setPool p q).terms = s.terms := rfl
@[simp] theorem setPool_starved : (s.setPool p q).starved = s.starved := rfl
@[simp] theorem setPool_holdings : (s.setPool p q).holdings = s.holdings := rfl
@[simp] theorem setPool_waiters : (s.setPool p q).waiters = s.waiters := rfl
@[simp] theorem setPool_siteTime : (s.setPool p q).siteTime = s.siteTime := rfl
@[simp] theorem setPool_timeState : (s.setPool p q).timeState = s.timeState := rfl
@[simp] theorem setPool_divider : (s.setPool p q).divider = s.divider := rfl
@[simp] theorem setPool_reached : (s.setPool p q).reached = s.reached := rfl
@[simp] theorem setPool_atOnce : (s.setPool p q).atOnce = s.atOnce := rfl
@[simp] theorem setPool_notices : (s.setPool p q).notices = s.notices := rfl
@[simp] theorem setPool_choices : (s.setPool p q).choices = s.choices := rfl
@[simp] theorem setPool_pending : (s.setPool p q).pending = s.pending := rfl

/-! ### setFeature -/

@[simp] theorem setFeature_resetLow : (s.setFeature code f).resetLow = s.resetLow := rfl
@[simp] theorem setFeature_admen : (s.setFeature code f).admen = s.admen := rfl
@[simp] theorem setFeature_sdo : (s.setFeature code f).sdo = s.sdo := rfl
@[simp] theorem setFeature_sdoBits : (s.setFeature code f).sdoBits = s.sdoBits := rfl
@[simp] theorem setFeature_fifo : (s.setFeature code f).fifo = s.fifo := rfl
@[simp] theorem setFeature_replies : (s.setFeature code f).replies = s.replies := rfl
@[simp] theorem setFeature_overrun : (s.setFeature code f).overrun = s.overrun := rfl
@[simp] theorem setFeature_framing : (s.setFeature code f).framing = s.framing := rfl
@[simp] theorem setFeature_service : (s.setFeature code f).service = s.service := rfl
@[simp] theorem setFeature_pools : (s.setFeature code f).pools = s.pools := rfl
@[simp] theorem setFeature_projects : (s.setFeature code f).projects = s.projects := rfl
@[simp] theorem setFeature_allotments : (s.setFeature code f).allotments = s.allotments := rfl
@[simp] theorem setFeature_users : (s.setFeature code f).users = s.users := rfl
@[simp] theorem setFeature_hosts : (s.setFeature code f).hosts = s.hosts := rfl
@[simp] theorem setFeature_drained : (s.setFeature code f).drained = s.drained := rfl
@[simp] theorem setFeature_terms : (s.setFeature code f).terms = s.terms := rfl
@[simp] theorem setFeature_starved : (s.setFeature code f).starved = s.starved := rfl
@[simp] theorem setFeature_holdings : (s.setFeature code f).holdings = s.holdings := rfl
@[simp] theorem setFeature_waiters : (s.setFeature code f).waiters = s.waiters := rfl
@[simp] theorem setFeature_siteTime : (s.setFeature code f).siteTime = s.siteTime := rfl
@[simp] theorem setFeature_timeState : (s.setFeature code f).timeState = s.timeState := rfl
@[simp] theorem setFeature_divider : (s.setFeature code f).divider = s.divider := rfl
@[simp] theorem setFeature_reached : (s.setFeature code f).reached = s.reached := rfl
@[simp] theorem setFeature_atOnce : (s.setFeature code f).atOnce = s.atOnce := rfl
@[simp] theorem setFeature_notices : (s.setFeature code f).notices = s.notices := rfl
@[simp] theorem setFeature_choices : (s.setFeature code f).choices = s.choices := rfl
@[simp] theorem setFeature_pending : (s.setFeature code f).pending = s.pending := rfl

/-! ### withdraw -/

@[simp] theorem withdraw_resetLow : (s.withdraw named).resetLow = s.resetLow := rfl
@[simp] theorem withdraw_admen : (s.withdraw named).admen = s.admen := rfl
@[simp] theorem withdraw_sdo : (s.withdraw named).sdo = s.sdo := rfl
@[simp] theorem withdraw_sdoBits : (s.withdraw named).sdoBits = s.sdoBits := rfl
@[simp] theorem withdraw_fifo : (s.withdraw named).fifo = s.fifo := rfl
@[simp] theorem withdraw_replies : (s.withdraw named).replies = s.replies := rfl
@[simp] theorem withdraw_overrun : (s.withdraw named).overrun = s.overrun := rfl
@[simp] theorem withdraw_framing : (s.withdraw named).framing = s.framing := rfl
@[simp] theorem withdraw_service : (s.withdraw named).service = s.service := rfl
@[simp] theorem withdraw_features : (s.withdraw named).features = s.features := rfl
@[simp] theorem withdraw_pools : (s.withdraw named).pools = s.pools := rfl
@[simp] theorem withdraw_projects : (s.withdraw named).projects = s.projects := rfl
@[simp] theorem withdraw_allotments : (s.withdraw named).allotments = s.allotments := rfl
@[simp] theorem withdraw_users : (s.withdraw named).users = s.users := rfl
@[simp] theorem withdraw_hosts : (s.withdraw named).hosts = s.hosts := rfl
@[simp] theorem withdraw_drained : (s.withdraw named).drained = s.drained := rfl
@[simp] theorem withdraw_terms : (s.withdraw named).terms = s.terms := rfl
@[simp] theorem withdraw_starved : (s.withdraw named).starved = s.starved := rfl
@[simp] theorem withdraw_holdings : (s.withdraw named).holdings = s.holdings := rfl
@[simp] theorem withdraw_waiters : (s.withdraw named).waiters = s.waiters := rfl
@[simp] theorem withdraw_siteTime : (s.withdraw named).siteTime = s.siteTime := rfl
@[simp] theorem withdraw_timeState : (s.withdraw named).timeState = s.timeState := rfl
@[simp] theorem withdraw_divider : (s.withdraw named).divider = s.divider := rfl
@[simp] theorem withdraw_notices : (s.withdraw named).notices = s.notices := rfl
@[simp] theorem withdraw_choices : (s.withdraw named).choices = s.choices := rfl
@[simp] theorem withdraw_pending : (s.withdraw named).pending = s.pending := rfl

/-! ### changeAllotment -/

@[simp] theorem changeAllotment_resetLow : (s.changeAllotment project pool g).resetLow = s.resetLow := rfl
@[simp] theorem changeAllotment_admen : (s.changeAllotment project pool g).admen = s.admen := rfl
@[simp] theorem changeAllotment_sdo : (s.changeAllotment project pool g).sdo = s.sdo := rfl
@[simp] theorem changeAllotment_sdoBits : (s.changeAllotment project pool g).sdoBits = s.sdoBits := rfl
@[simp] theorem changeAllotment_fifo : (s.changeAllotment project pool g).fifo = s.fifo := rfl
@[simp] theorem changeAllotment_replies : (s.changeAllotment project pool g).replies = s.replies := rfl
@[simp] theorem changeAllotment_overrun : (s.changeAllotment project pool g).overrun = s.overrun := rfl
@[simp] theorem changeAllotment_framing : (s.changeAllotment project pool g).framing = s.framing := rfl
@[simp] theorem changeAllotment_service : (s.changeAllotment project pool g).service = s.service := rfl
@[simp] theorem changeAllotment_features : (s.changeAllotment project pool g).features = s.features := rfl
@[simp] theorem changeAllotment_pools : (s.changeAllotment project pool g).pools = s.pools := rfl
@[simp] theorem changeAllotment_projects : (s.changeAllotment project pool g).projects = s.projects := rfl
@[simp] theorem changeAllotment_users : (s.changeAllotment project pool g).users = s.users := rfl
@[simp] theorem changeAllotment_hosts : (s.changeAllotment project pool g).hosts = s.hosts := rfl
@[simp] theorem changeAllotment_drained : (s.changeAllotment project pool g).drained = s.drained := rfl
@[simp] theorem changeAllotment_terms : (s.changeAllotment project pool g).terms = s.terms := rfl
@[simp] theorem changeAllotment_starved : (s.changeAllotment project pool g).starved = s.starved := rfl
@[simp] theorem changeAllotment_holdings : (s.changeAllotment project pool g).holdings = s.holdings := rfl
@[simp] theorem changeAllotment_waiters : (s.changeAllotment project pool g).waiters = s.waiters := rfl
@[simp] theorem changeAllotment_siteTime : (s.changeAllotment project pool g).siteTime = s.siteTime := rfl
@[simp] theorem changeAllotment_timeState : (s.changeAllotment project pool g).timeState = s.timeState := rfl
@[simp] theorem changeAllotment_divider : (s.changeAllotment project pool g).divider = s.divider := rfl
@[simp] theorem changeAllotment_reached : (s.changeAllotment project pool g).reached = s.reached := rfl
@[simp] theorem changeAllotment_atOnce : (s.changeAllotment project pool g).atOnce = s.atOnce := rfl
@[simp] theorem changeAllotment_notices : (s.changeAllotment project pool g).notices = s.notices := rfl
@[simp] theorem changeAllotment_choices : (s.changeAllotment project pool g).choices = s.choices := rfl
@[simp] theorem changeAllotment_pending : (s.changeAllotment project pool g).pending = s.pending := rfl

/-! ### postUsed -/

@[simp] theorem postUsed_resetLow : (s.postUsed project pool u).resetLow = s.resetLow := rfl
@[simp] theorem postUsed_admen : (s.postUsed project pool u).admen = s.admen := rfl
@[simp] theorem postUsed_sdo : (s.postUsed project pool u).sdo = s.sdo := rfl
@[simp] theorem postUsed_sdoBits : (s.postUsed project pool u).sdoBits = s.sdoBits := rfl
@[simp] theorem postUsed_fifo : (s.postUsed project pool u).fifo = s.fifo := rfl
@[simp] theorem postUsed_replies : (s.postUsed project pool u).replies = s.replies := rfl
@[simp] theorem postUsed_overrun : (s.postUsed project pool u).overrun = s.overrun := rfl
@[simp] theorem postUsed_framing : (s.postUsed project pool u).framing = s.framing := rfl
@[simp] theorem postUsed_service : (s.postUsed project pool u).service = s.service := rfl
@[simp] theorem postUsed_features : (s.postUsed project pool u).features = s.features := rfl
@[simp] theorem postUsed_pools : (s.postUsed project pool u).pools = s.pools := rfl
@[simp] theorem postUsed_projects : (s.postUsed project pool u).projects = s.projects := rfl
@[simp] theorem postUsed_users : (s.postUsed project pool u).users = s.users := rfl
@[simp] theorem postUsed_hosts : (s.postUsed project pool u).hosts = s.hosts := rfl
@[simp] theorem postUsed_drained : (s.postUsed project pool u).drained = s.drained := rfl
@[simp] theorem postUsed_terms : (s.postUsed project pool u).terms = s.terms := rfl
@[simp] theorem postUsed_starved : (s.postUsed project pool u).starved = s.starved := rfl
@[simp] theorem postUsed_holdings : (s.postUsed project pool u).holdings = s.holdings := rfl
@[simp] theorem postUsed_waiters : (s.postUsed project pool u).waiters = s.waiters := rfl
@[simp] theorem postUsed_siteTime : (s.postUsed project pool u).siteTime = s.siteTime := rfl
@[simp] theorem postUsed_timeState : (s.postUsed project pool u).timeState = s.timeState := rfl
@[simp] theorem postUsed_divider : (s.postUsed project pool u).divider = s.divider := rfl
@[simp] theorem postUsed_reached : (s.postUsed project pool u).reached = s.reached := rfl
@[simp] theorem postUsed_atOnce : (s.postUsed project pool u).atOnce = s.atOnce := rfl
@[simp] theorem postUsed_notices : (s.postUsed project pool u).notices = s.notices := rfl
@[simp] theorem postUsed_choices : (s.postUsed project pool u).choices = s.choices := rfl
@[simp] theorem postUsed_pending : (s.postUsed project pool u).pending = s.pending := rfl

/-! ### leaveQueue -/

@[simp] theorem leaveQueue_resetLow : (s.leaveQueue pool j).resetLow = s.resetLow := rfl
@[simp] theorem leaveQueue_admen : (s.leaveQueue pool j).admen = s.admen := rfl
@[simp] theorem leaveQueue_sdo : (s.leaveQueue pool j).sdo = s.sdo := rfl
@[simp] theorem leaveQueue_sdoBits : (s.leaveQueue pool j).sdoBits = s.sdoBits := rfl
@[simp] theorem leaveQueue_fifo : (s.leaveQueue pool j).fifo = s.fifo := rfl
@[simp] theorem leaveQueue_replies : (s.leaveQueue pool j).replies = s.replies := rfl
@[simp] theorem leaveQueue_overrun : (s.leaveQueue pool j).overrun = s.overrun := rfl
@[simp] theorem leaveQueue_framing : (s.leaveQueue pool j).framing = s.framing := rfl
@[simp] theorem leaveQueue_service : (s.leaveQueue pool j).service = s.service := rfl
@[simp] theorem leaveQueue_features : (s.leaveQueue pool j).features = s.features := rfl
@[simp] theorem leaveQueue_projects : (s.leaveQueue pool j).projects = s.projects := rfl
@[simp] theorem leaveQueue_allotments : (s.leaveQueue pool j).allotments = s.allotments := rfl
@[simp] theorem leaveQueue_users : (s.leaveQueue pool j).users = s.users := rfl
@[simp] theorem leaveQueue_hosts : (s.leaveQueue pool j).hosts = s.hosts := rfl
@[simp] theorem leaveQueue_drained : (s.leaveQueue pool j).drained = s.drained := rfl
@[simp] theorem leaveQueue_terms : (s.leaveQueue pool j).terms = s.terms := rfl
@[simp] theorem leaveQueue_starved : (s.leaveQueue pool j).starved = s.starved := rfl
@[simp] theorem leaveQueue_holdings : (s.leaveQueue pool j).holdings = s.holdings := rfl
@[simp] theorem leaveQueue_waiters : (s.leaveQueue pool j).waiters = s.waiters := rfl
@[simp] theorem leaveQueue_siteTime : (s.leaveQueue pool j).siteTime = s.siteTime := rfl
@[simp] theorem leaveQueue_timeState : (s.leaveQueue pool j).timeState = s.timeState := rfl
@[simp] theorem leaveQueue_divider : (s.leaveQueue pool j).divider = s.divider := rfl
@[simp] theorem leaveQueue_reached : (s.leaveQueue pool j).reached = s.reached := rfl
@[simp] theorem leaveQueue_atOnce : (s.leaveQueue pool j).atOnce = s.atOnce := rfl
@[simp] theorem leaveQueue_notices : (s.leaveQueue pool j).notices = s.notices := rfl
@[simp] theorem leaveQueue_choices : (s.leaveQueue pool j).choices = s.choices := rfl
@[simp] theorem leaveQueue_pending : (s.leaveQueue pool j).pending = s.pending := rfl

/-! ### joinQueue -/

@[simp] theorem joinQueue_resetLow : (s.joinQueue pool j cls).resetLow = s.resetLow := rfl
@[simp] theorem joinQueue_admen : (s.joinQueue pool j cls).admen = s.admen := rfl
@[simp] theorem joinQueue_sdo : (s.joinQueue pool j cls).sdo = s.sdo := rfl
@[simp] theorem joinQueue_sdoBits : (s.joinQueue pool j cls).sdoBits = s.sdoBits := rfl
@[simp] theorem joinQueue_fifo : (s.joinQueue pool j cls).fifo = s.fifo := rfl
@[simp] theorem joinQueue_replies : (s.joinQueue pool j cls).replies = s.replies := rfl
@[simp] theorem joinQueue_overrun : (s.joinQueue pool j cls).overrun = s.overrun := rfl
@[simp] theorem joinQueue_framing : (s.joinQueue pool j cls).framing = s.framing := rfl
@[simp] theorem joinQueue_service : (s.joinQueue pool j cls).service = s.service := rfl
@[simp] theorem joinQueue_features : (s.joinQueue pool j cls).features = s.features := rfl
@[simp] theorem joinQueue_projects : (s.joinQueue pool j cls).projects = s.projects := rfl
@[simp] theorem joinQueue_allotments : (s.joinQueue pool j cls).allotments = s.allotments := rfl
@[simp] theorem joinQueue_users : (s.joinQueue pool j cls).users = s.users := rfl
@[simp] theorem joinQueue_hosts : (s.joinQueue pool j cls).hosts = s.hosts := rfl
@[simp] theorem joinQueue_drained : (s.joinQueue pool j cls).drained = s.drained := rfl
@[simp] theorem joinQueue_terms : (s.joinQueue pool j cls).terms = s.terms := rfl
@[simp] theorem joinQueue_starved : (s.joinQueue pool j cls).starved = s.starved := rfl
@[simp] theorem joinQueue_holdings : (s.joinQueue pool j cls).holdings = s.holdings := rfl
@[simp] theorem joinQueue_waiters : (s.joinQueue pool j cls).waiters = s.waiters := rfl
@[simp] theorem joinQueue_siteTime : (s.joinQueue pool j cls).siteTime = s.siteTime := rfl
@[simp] theorem joinQueue_timeState : (s.joinQueue pool j cls).timeState = s.timeState := rfl
@[simp] theorem joinQueue_divider : (s.joinQueue pool j cls).divider = s.divider := rfl
@[simp] theorem joinQueue_reached : (s.joinQueue pool j cls).reached = s.reached := rfl
@[simp] theorem joinQueue_atOnce : (s.joinQueue pool j cls).atOnce = s.atOnce := rfl
@[simp] theorem joinQueue_notices : (s.joinQueue pool j cls).notices = s.notices := rfl
@[simp] theorem joinQueue_choices : (s.joinQueue pool j cls).choices = s.choices := rfl
@[simp] theorem joinQueue_pending : (s.joinQueue pool j cls).pending = s.pending := rfl

/-! ### recomputeOver -/

@[simp] theorem recomputeOver_resetLow : (s.recomputeOver pool evt).resetLow = s.resetLow := rfl
@[simp] theorem recomputeOver_admen : (s.recomputeOver pool evt).admen = s.admen := rfl
@[simp] theorem recomputeOver_sdo : (s.recomputeOver pool evt).sdo = s.sdo := rfl
@[simp] theorem recomputeOver_sdoBits : (s.recomputeOver pool evt).sdoBits = s.sdoBits := rfl
@[simp] theorem recomputeOver_fifo : (s.recomputeOver pool evt).fifo = s.fifo := rfl
@[simp] theorem recomputeOver_replies : (s.recomputeOver pool evt).replies = s.replies := rfl
@[simp] theorem recomputeOver_overrun : (s.recomputeOver pool evt).overrun = s.overrun := rfl
@[simp] theorem recomputeOver_framing : (s.recomputeOver pool evt).framing = s.framing := rfl
@[simp] theorem recomputeOver_service : (s.recomputeOver pool evt).service = s.service := rfl
@[simp] theorem recomputeOver_features : (s.recomputeOver pool evt).features = s.features := rfl
@[simp] theorem recomputeOver_projects : (s.recomputeOver pool evt).projects = s.projects := rfl
@[simp] theorem recomputeOver_allotments : (s.recomputeOver pool evt).allotments = s.allotments := rfl
@[simp] theorem recomputeOver_users : (s.recomputeOver pool evt).users = s.users := rfl
@[simp] theorem recomputeOver_hosts : (s.recomputeOver pool evt).hosts = s.hosts := rfl
@[simp] theorem recomputeOver_drained : (s.recomputeOver pool evt).drained = s.drained := rfl
@[simp] theorem recomputeOver_terms : (s.recomputeOver pool evt).terms = s.terms := rfl
@[simp] theorem recomputeOver_starved : (s.recomputeOver pool evt).starved = s.starved := rfl
@[simp] theorem recomputeOver_holdings : (s.recomputeOver pool evt).holdings = s.holdings := rfl
@[simp] theorem recomputeOver_waiters : (s.recomputeOver pool evt).waiters = s.waiters := rfl
@[simp] theorem recomputeOver_siteTime : (s.recomputeOver pool evt).siteTime = s.siteTime := rfl
@[simp] theorem recomputeOver_timeState : (s.recomputeOver pool evt).timeState = s.timeState := rfl
@[simp] theorem recomputeOver_divider : (s.recomputeOver pool evt).divider = s.divider := rfl
@[simp] theorem recomputeOver_reached : (s.recomputeOver pool evt).reached = s.reached := rfl
@[simp] theorem recomputeOver_atOnce : (s.recomputeOver pool evt).atOnce = s.atOnce := rfl
@[simp] theorem recomputeOver_notices : (s.recomputeOver pool evt).notices = s.notices := rfl
@[simp] theorem recomputeOver_choices : (s.recomputeOver pool evt).choices = s.choices := rfl
@[simp] theorem recomputeOver_pending : (s.recomputeOver pool evt).pending = s.pending := rfl

/-! ### unlinger -/

@[simp] theorem unlinger_resetLow : (s.unlinger pool tokens).resetLow = s.resetLow := rfl
@[simp] theorem unlinger_admen : (s.unlinger pool tokens).admen = s.admen := rfl
@[simp] theorem unlinger_sdo : (s.unlinger pool tokens).sdo = s.sdo := rfl
@[simp] theorem unlinger_sdoBits : (s.unlinger pool tokens).sdoBits = s.sdoBits := rfl
@[simp] theorem unlinger_fifo : (s.unlinger pool tokens).fifo = s.fifo := rfl
@[simp] theorem unlinger_replies : (s.unlinger pool tokens).replies = s.replies := rfl
@[simp] theorem unlinger_overrun : (s.unlinger pool tokens).overrun = s.overrun := rfl
@[simp] theorem unlinger_framing : (s.unlinger pool tokens).framing = s.framing := rfl
@[simp] theorem unlinger_service : (s.unlinger pool tokens).service = s.service := rfl
@[simp] theorem unlinger_features : (s.unlinger pool tokens).features = s.features := rfl
@[simp] theorem unlinger_projects : (s.unlinger pool tokens).projects = s.projects := rfl
@[simp] theorem unlinger_allotments : (s.unlinger pool tokens).allotments = s.allotments := rfl
@[simp] theorem unlinger_users : (s.unlinger pool tokens).users = s.users := rfl
@[simp] theorem unlinger_hosts : (s.unlinger pool tokens).hosts = s.hosts := rfl
@[simp] theorem unlinger_drained : (s.unlinger pool tokens).drained = s.drained := rfl
@[simp] theorem unlinger_terms : (s.unlinger pool tokens).terms = s.terms := rfl
@[simp] theorem unlinger_starved : (s.unlinger pool tokens).starved = s.starved := rfl
@[simp] theorem unlinger_holdings : (s.unlinger pool tokens).holdings = s.holdings := rfl
@[simp] theorem unlinger_waiters : (s.unlinger pool tokens).waiters = s.waiters := rfl
@[simp] theorem unlinger_siteTime : (s.unlinger pool tokens).siteTime = s.siteTime := rfl
@[simp] theorem unlinger_timeState : (s.unlinger pool tokens).timeState = s.timeState := rfl
@[simp] theorem unlinger_divider : (s.unlinger pool tokens).divider = s.divider := rfl
@[simp] theorem unlinger_reached : (s.unlinger pool tokens).reached = s.reached := rfl
@[simp] theorem unlinger_atOnce : (s.unlinger pool tokens).atOnce = s.atOnce := rfl
@[simp] theorem unlinger_notices : (s.unlinger pool tokens).notices = s.notices := rfl
@[simp] theorem unlinger_choices : (s.unlinger pool tokens).choices = s.choices := rfl
@[simp] theorem unlinger_pending : (s.unlinger pool tokens).pending = s.pending := rfl

/-! ### addDrained -/

@[simp] theorem addDrained_resetLow : (s.addDrained d).resetLow = s.resetLow := rfl
@[simp] theorem addDrained_admen : (s.addDrained d).admen = s.admen := rfl
@[simp] theorem addDrained_sdo : (s.addDrained d).sdo = s.sdo := rfl
@[simp] theorem addDrained_sdoBits : (s.addDrained d).sdoBits = s.sdoBits := rfl
@[simp] theorem addDrained_fifo : (s.addDrained d).fifo = s.fifo := rfl
@[simp] theorem addDrained_replies : (s.addDrained d).replies = s.replies := rfl
@[simp] theorem addDrained_overrun : (s.addDrained d).overrun = s.overrun := rfl
@[simp] theorem addDrained_framing : (s.addDrained d).framing = s.framing := rfl
@[simp] theorem addDrained_service : (s.addDrained d).service = s.service := rfl
@[simp] theorem addDrained_features : (s.addDrained d).features = s.features := rfl
@[simp] theorem addDrained_pools : (s.addDrained d).pools = s.pools := rfl
@[simp] theorem addDrained_projects : (s.addDrained d).projects = s.projects := rfl
@[simp] theorem addDrained_allotments : (s.addDrained d).allotments = s.allotments := rfl
@[simp] theorem addDrained_users : (s.addDrained d).users = s.users := rfl
@[simp] theorem addDrained_hosts : (s.addDrained d).hosts = s.hosts := rfl
@[simp] theorem addDrained_terms : (s.addDrained d).terms = s.terms := rfl
@[simp] theorem addDrained_starved : (s.addDrained d).starved = s.starved := rfl
@[simp] theorem addDrained_holdings : (s.addDrained d).holdings = s.holdings := rfl
@[simp] theorem addDrained_waiters : (s.addDrained d).waiters = s.waiters := rfl
@[simp] theorem addDrained_siteTime : (s.addDrained d).siteTime = s.siteTime := rfl
@[simp] theorem addDrained_timeState : (s.addDrained d).timeState = s.timeState := rfl
@[simp] theorem addDrained_divider : (s.addDrained d).divider = s.divider := rfl
@[simp] theorem addDrained_reached : (s.addDrained d).reached = s.reached := rfl
@[simp] theorem addDrained_atOnce : (s.addDrained d).atOnce = s.atOnce := rfl
@[simp] theorem addDrained_notices : (s.addDrained d).notices = s.notices := rfl
@[simp] theorem addDrained_choices : (s.addDrained d).choices = s.choices := rfl
@[simp] theorem addDrained_pending : (s.addDrained d).pending = s.pending := rfl

/-! ### taken -/

@[simp] theorem taken_resetLow : (s.taken dl).resetLow = s.resetLow := rfl
@[simp] theorem taken_admen : (s.taken dl).admen = s.admen := rfl
@[simp] theorem taken_sdo : (s.taken dl).sdo = s.sdo := rfl
@[simp] theorem taken_sdoBits : (s.taken dl).sdoBits = s.sdoBits := rfl
@[simp] theorem taken_fifo : (s.taken dl).fifo = s.fifo := rfl
@[simp] theorem taken_replies : (s.taken dl).replies = s.replies := rfl
@[simp] theorem taken_overrun : (s.taken dl).overrun = s.overrun := rfl
@[simp] theorem taken_framing : (s.taken dl).framing = s.framing := rfl
@[simp] theorem taken_service : (s.taken dl).service = s.service := rfl
@[simp] theorem taken_features : (s.taken dl).features = s.features := rfl
@[simp] theorem taken_pools : (s.taken dl).pools = s.pools := rfl
@[simp] theorem taken_projects : (s.taken dl).projects = s.projects := rfl
@[simp] theorem taken_allotments : (s.taken dl).allotments = s.allotments := rfl
@[simp] theorem taken_users : (s.taken dl).users = s.users := rfl
@[simp] theorem taken_hosts : (s.taken dl).hosts = s.hosts := rfl
@[simp] theorem taken_drained : (s.taken dl).drained = s.drained := rfl
@[simp] theorem taken_terms : (s.taken dl).terms = s.terms := rfl
@[simp] theorem taken_starved : (s.taken dl).starved = s.starved := rfl
@[simp] theorem taken_holdings : (s.taken dl).holdings = s.holdings := rfl
@[simp] theorem taken_waiters : (s.taken dl).waiters = s.waiters := rfl
@[simp] theorem taken_siteTime : (s.taken dl).siteTime = s.siteTime := rfl
@[simp] theorem taken_timeState : (s.taken dl).timeState = s.timeState := rfl
@[simp] theorem taken_divider : (s.taken dl).divider = s.divider := rfl
@[simp] theorem taken_atOnce : (s.taken dl).atOnce = s.atOnce := rfl
@[simp] theorem taken_notices : (s.taken dl).notices = s.notices := rfl
@[simp] theorem taken_choices : (s.taken dl).choices = s.choices := rfl
@[simp] theorem taken_pending : (s.taken dl).pending = s.pending := rfl

/-! ### leaving -/

@[simp] theorem leaving_resetLow : (s.leaving frames).resetLow = s.resetLow := rfl
@[simp] theorem leaving_admen : (s.leaving frames).admen = s.admen := rfl
@[simp] theorem leaving_sdo : (s.leaving frames).sdo = s.sdo := rfl
@[simp] theorem leaving_sdoBits : (s.leaving frames).sdoBits = s.sdoBits := rfl
@[simp] theorem leaving_replies : (s.leaving frames).replies = s.replies := rfl
@[simp] theorem leaving_overrun : (s.leaving frames).overrun = s.overrun := rfl
@[simp] theorem leaving_framing : (s.leaving frames).framing = s.framing := rfl
@[simp] theorem leaving_service : (s.leaving frames).service = s.service := rfl
@[simp] theorem leaving_features : (s.leaving frames).features = s.features := rfl
@[simp] theorem leaving_pools : (s.leaving frames).pools = s.pools := rfl
@[simp] theorem leaving_projects : (s.leaving frames).projects = s.projects := rfl
@[simp] theorem leaving_allotments : (s.leaving frames).allotments = s.allotments := rfl
@[simp] theorem leaving_users : (s.leaving frames).users = s.users := rfl
@[simp] theorem leaving_hosts : (s.leaving frames).hosts = s.hosts := rfl
@[simp] theorem leaving_drained : (s.leaving frames).drained = s.drained := rfl
@[simp] theorem leaving_terms : (s.leaving frames).terms = s.terms := rfl
@[simp] theorem leaving_starved : (s.leaving frames).starved = s.starved := rfl
@[simp] theorem leaving_holdings : (s.leaving frames).holdings = s.holdings := rfl
@[simp] theorem leaving_waiters : (s.leaving frames).waiters = s.waiters := rfl
@[simp] theorem leaving_siteTime : (s.leaving frames).siteTime = s.siteTime := rfl
@[simp] theorem leaving_timeState : (s.leaving frames).timeState = s.timeState := rfl
@[simp] theorem leaving_divider : (s.leaving frames).divider = s.divider := rfl
@[simp] theorem leaving_reached : (s.leaving frames).reached = s.reached := rfl
@[simp] theorem leaving_atOnce : (s.leaving frames).atOnce = s.atOnce := rfl
@[simp] theorem leaving_notices : (s.leaving frames).notices = s.notices := rfl
@[simp] theorem leaving_choices : (s.leaving frames).choices = s.choices := rfl
@[simp] theorem leaving_pending : (s.leaving frames).pending = s.pending := rfl

/-! ### placeReply -/

@[simp] theorem placeReply_resetLow : (s.placeReply r).resetLow = s.resetLow := rfl
@[simp] theorem placeReply_admen : (s.placeReply r).admen = s.admen := rfl
@[simp] theorem placeReply_sdo : (s.placeReply r).sdo = s.sdo := rfl
@[simp] theorem placeReply_sdoBits : (s.placeReply r).sdoBits = s.sdoBits := rfl
@[simp] theorem placeReply_fifo : (s.placeReply r).fifo = s.fifo := rfl
@[simp] theorem placeReply_overrun : (s.placeReply r).overrun = s.overrun := rfl
@[simp] theorem placeReply_framing : (s.placeReply r).framing = s.framing := rfl
@[simp] theorem placeReply_service : (s.placeReply r).service = s.service := rfl
@[simp] theorem placeReply_features : (s.placeReply r).features = s.features := rfl
@[simp] theorem placeReply_pools : (s.placeReply r).pools = s.pools := rfl
@[simp] theorem placeReply_projects : (s.placeReply r).projects = s.projects := rfl
@[simp] theorem placeReply_allotments : (s.placeReply r).allotments = s.allotments := rfl
@[simp] theorem placeReply_users : (s.placeReply r).users = s.users := rfl
@[simp] theorem placeReply_hosts : (s.placeReply r).hosts = s.hosts := rfl
@[simp] theorem placeReply_drained : (s.placeReply r).drained = s.drained := rfl
@[simp] theorem placeReply_terms : (s.placeReply r).terms = s.terms := rfl
@[simp] theorem placeReply_starved : (s.placeReply r).starved = s.starved := rfl
@[simp] theorem placeReply_holdings : (s.placeReply r).holdings = s.holdings := rfl
@[simp] theorem placeReply_waiters : (s.placeReply r).waiters = s.waiters := rfl
@[simp] theorem placeReply_siteTime : (s.placeReply r).siteTime = s.siteTime := rfl
@[simp] theorem placeReply_timeState : (s.placeReply r).timeState = s.timeState := rfl
@[simp] theorem placeReply_divider : (s.placeReply r).divider = s.divider := rfl
@[simp] theorem placeReply_reached : (s.placeReply r).reached = s.reached := rfl
@[simp] theorem placeReply_atOnce : (s.placeReply r).atOnce = s.atOnce := rfl
@[simp] theorem placeReply_notices : (s.placeReply r).notices = s.notices := rfl
@[simp] theorem placeReply_choices : (s.placeReply r).choices = s.choices := rfl
@[simp] theorem placeReply_pending : (s.placeReply r).pending = s.pending := rfl

/-! ### What the updates write -/

@[simp] theorem holding_setHolding : (s.setHolding i h).holding k = if k = i then h else s.holding k :=
  tableGet_put ..

@[simp] theorem waiter_setWaiter : (s.setWaiter j w).waiter k = if k = j then w else s.waiter k :=
  tableGet_put ..

@[simp] theorem pool_setPool : (s.setPool p q).pool k = if k = p then q else s.pool k :=
  tableGet_put ..

@[simp] theorem feature_setFeature :
    (s.setFeature code f).feature k = if k = code then some f else s.feature k := tableFind_insert ..

/-! ### Entries that an update does not write -/

@[simp] theorem waiter_setHolding : (s.setHolding i h).waiter k = s.waiter k := rfl
@[simp] theorem pool_setHolding : (s.setHolding i h).pool k = s.pool k := rfl
@[simp] theorem feature_setHolding : (s.setHolding i h).feature k = s.feature k := rfl
@[simp] theorem featureOf_setHolding : (s.setHolding i h).featureOf k = s.featureOf k := rfl
@[simp] theorem reserveSum_setHolding : (s.setHolding i h).reserveSum k = s.reserveSum k := rfl

@[simp] theorem holding_setWaiter : (s.setWaiter j w).holding k = s.holding k := rfl
@[simp] theorem pool_setWaiter : (s.setWaiter j w).pool k = s.pool k := rfl
@[simp] theorem feature_setWaiter : (s.setWaiter j w).feature k = s.feature k := rfl
@[simp] theorem featureOf_setWaiter : (s.setWaiter j w).featureOf k = s.featureOf k := rfl
@[simp] theorem reserveSum_setWaiter : (s.setWaiter j w).reserveSum k = s.reserveSum k := rfl

@[simp] theorem holding_setPool : (s.setPool p q).holding k = s.holding k := rfl
@[simp] theorem waiter_setPool : (s.setPool p q).waiter k = s.waiter k := rfl
@[simp] theorem feature_setPool : (s.setPool p q).feature k = s.feature k := rfl
@[simp] theorem featureOf_setPool : (s.setPool p q).featureOf k = s.featureOf k := rfl
@[simp] theorem reserveSum_setPool : (s.setPool p q).reserveSum k = s.reserveSum k := rfl

@[simp] theorem holding_setFeature : (s.setFeature code f).holding k = s.holding k := rfl
@[simp] theorem waiter_setFeature : (s.setFeature code f).waiter k = s.waiter k := rfl
@[simp] theorem pool_setFeature : (s.setFeature code f).pool k = s.pool k := rfl
@[simp] theorem reserveSum_setFeature : (s.setFeature code f).reserveSum k = s.reserveSum k := rfl

@[simp] theorem holding_withdraw : (s.withdraw named).holding k = s.holding k := rfl
@[simp] theorem waiter_withdraw : (s.withdraw named).waiter k = s.waiter k := rfl
@[simp] theorem pool_withdraw : (s.withdraw named).pool k = s.pool k := rfl
@[simp] theorem feature_withdraw : (s.withdraw named).feature k = s.feature k := rfl
@[simp] theorem featureOf_withdraw : (s.withdraw named).featureOf k = s.featureOf k := rfl
@[simp] theorem reserveSum_withdraw : (s.withdraw named).reserveSum k = s.reserveSum k := rfl

@[simp] theorem holding_changeAllotment : (s.changeAllotment project pool g).holding k = s.holding k := rfl
@[simp] theorem waiter_changeAllotment : (s.changeAllotment project pool g).waiter k = s.waiter k := rfl
@[simp] theorem pool_changeAllotment : (s.changeAllotment project pool g).pool k = s.pool k := rfl
@[simp] theorem feature_changeAllotment : (s.changeAllotment project pool g).feature k = s.feature k := rfl
@[simp] theorem featureOf_changeAllotment : (s.changeAllotment project pool g).featureOf k = s.featureOf k := rfl

@[simp] theorem holding_postUsed : (s.postUsed project pool u).holding k = s.holding k := rfl
@[simp] theorem waiter_postUsed : (s.postUsed project pool u).waiter k = s.waiter k := rfl
@[simp] theorem pool_postUsed : (s.postUsed project pool u).pool k = s.pool k := rfl
@[simp] theorem feature_postUsed : (s.postUsed project pool u).feature k = s.feature k := rfl
@[simp] theorem featureOf_postUsed : (s.postUsed project pool u).featureOf k = s.featureOf k := rfl

@[simp] theorem holding_leaveQueue : (s.leaveQueue pool j).holding k = s.holding k := rfl
@[simp] theorem waiter_leaveQueue : (s.leaveQueue pool j).waiter k = s.waiter k := rfl
@[simp] theorem feature_leaveQueue : (s.leaveQueue pool j).feature k = s.feature k := rfl
@[simp] theorem featureOf_leaveQueue : (s.leaveQueue pool j).featureOf k = s.featureOf k := rfl
@[simp] theorem reserveSum_leaveQueue : (s.leaveQueue pool j).reserveSum k = s.reserveSum k := rfl

@[simp] theorem holding_joinQueue : (s.joinQueue pool j cls).holding k = s.holding k := rfl
@[simp] theorem waiter_joinQueue : (s.joinQueue pool j cls).waiter k = s.waiter k := rfl
@[simp] theorem feature_joinQueue : (s.joinQueue pool j cls).feature k = s.feature k := rfl
@[simp] theorem featureOf_joinQueue : (s.joinQueue pool j cls).featureOf k = s.featureOf k := rfl
@[simp] theorem reserveSum_joinQueue : (s.joinQueue pool j cls).reserveSum k = s.reserveSum k := rfl

@[simp] theorem holding_recomputeOver : (s.recomputeOver pool evt).holding k = s.holding k := rfl
@[simp] theorem waiter_recomputeOver : (s.recomputeOver pool evt).waiter k = s.waiter k := rfl
@[simp] theorem feature_recomputeOver : (s.recomputeOver pool evt).feature k = s.feature k := rfl
@[simp] theorem featureOf_recomputeOver : (s.recomputeOver pool evt).featureOf k = s.featureOf k := rfl
@[simp] theorem reserveSum_recomputeOver : (s.recomputeOver pool evt).reserveSum k = s.reserveSum k := rfl

@[simp] theorem holding_unlinger : (s.unlinger pool tokens).holding k = s.holding k := rfl
@[simp] theorem waiter_unlinger : (s.unlinger pool tokens).waiter k = s.waiter k := rfl
@[simp] theorem feature_unlinger : (s.unlinger pool tokens).feature k = s.feature k := rfl
@[simp] theorem featureOf_unlinger : (s.unlinger pool tokens).featureOf k = s.featureOf k := rfl
@[simp] theorem reserveSum_unlinger : (s.unlinger pool tokens).reserveSum k = s.reserveSum k := rfl

@[simp] theorem holding_addDrained : (s.addDrained d).holding k = s.holding k := rfl
@[simp] theorem waiter_addDrained : (s.addDrained d).waiter k = s.waiter k := rfl
@[simp] theorem pool_addDrained : (s.addDrained d).pool k = s.pool k := rfl
@[simp] theorem feature_addDrained : (s.addDrained d).feature k = s.feature k := rfl
@[simp] theorem featureOf_addDrained : (s.addDrained d).featureOf k = s.featureOf k := rfl
@[simp] theorem reserveSum_addDrained : (s.addDrained d).reserveSum k = s.reserveSum k := rfl

@[simp] theorem holding_taken : (s.taken dl).holding k = s.holding k := rfl
@[simp] theorem waiter_taken : (s.taken dl).waiter k = s.waiter k := rfl
@[simp] theorem pool_taken : (s.taken dl).pool k = s.pool k := rfl
@[simp] theorem feature_taken : (s.taken dl).feature k = s.feature k := rfl
@[simp] theorem featureOf_taken : (s.taken dl).featureOf k = s.featureOf k := rfl
@[simp] theorem reserveSum_taken : (s.taken dl).reserveSum k = s.reserveSum k := rfl

@[simp] theorem holding_leaving : (s.leaving frames).holding k = s.holding k := rfl
@[simp] theorem waiter_leaving : (s.leaving frames).waiter k = s.waiter k := rfl
@[simp] theorem pool_leaving : (s.leaving frames).pool k = s.pool k := rfl
@[simp] theorem feature_leaving : (s.leaving frames).feature k = s.feature k := rfl
@[simp] theorem featureOf_leaving : (s.leaving frames).featureOf k = s.featureOf k := rfl
@[simp] theorem reserveSum_leaving : (s.leaving frames).reserveSum k = s.reserveSum k := rfl

@[simp] theorem holding_placeReply : (s.placeReply r).holding k = s.holding k := rfl
@[simp] theorem waiter_placeReply : (s.placeReply r).waiter k = s.waiter k := rfl
@[simp] theorem pool_placeReply : (s.placeReply r).pool k = s.pool k := rfl
@[simp] theorem feature_placeReply : (s.placeReply r).feature k = s.feature k := rfl
@[simp] theorem featureOf_placeReply : (s.placeReply r).featureOf k = s.featureOf k := rfl
@[simp] theorem reserveSum_placeReply : (s.placeReply r).reserveSum k = s.reserveSum k := rfl

end Sys2Proof.Machine
end

