-- ==== Sys2Proof/Laws/Still.lean ====
section
/-! SUPPORT. The frame of the shared operations: the part of the state that no grant, scan, ending or deadline
changes. -/

namespace Sys2Proof.Machine

/-- The state with the collections emptied that grants, scans, endings and deadlines may change. Two states with one
`still` agree on the link, the lines, the service state, the project list, the directories, the term store, the clock,
the notice settings and the queue of commands. -/
def State.still (s : State) : State :=
  { s with
    features := []
    pools := []
    allotments := []
    drained := []
    starved := false
    holdings := []
    waiters := []
    reached := []
    atOnce := []
    choices := 0 }

variable (s : State) (i j k p code pool project tokens cls evt : Nat) (h : Holding) (w : Waiter) (q : Pool)
  (f : Feature) (a : Asking) (path : Path)

/-! ### Updates -/

@[simp] theorem still_setHolding : (s.setHolding i h).still = s.still := rfl
@[simp] theorem still_setWaiter : (s.setWaiter j w).still = s.still := rfl
@[simp] theorem still_setPool : (s.setPool p q).still = s.still := rfl
@[simp] theorem still_setFeature : (s.setFeature code f).still = s.still := rfl
@[simp] theorem still_withdraw (named : Deadline → Bool) : (s.withdraw named).still = s.still := rfl
@[simp] theorem still_changeAllotment (g : Allotment → Allotment) :
    (s.changeAllotment project pool g).still = s.still := rfl
@[simp] theorem still_postUsed (u : Nat → Nat) : (s.postUsed project pool u).still = s.still := rfl
@[simp] theorem still_leaveQueue : (s.leaveQueue pool j).still = s.still := rfl
@[simp] theorem still_joinQueue : (s.joinQueue pool j cls).still = s.still := rfl
@[simp] theorem still_recomputeOver : (s.recomputeOver pool evt).still = s.still := rfl
@[simp] theorem still_unlinger : (s.unlinger pool tokens).still = s.still := rfl
@[simp] theorem still_addDrained (d : Drained) : (s.addDrained d).still = s.still := rfl
@[simp] theorem still_starved (b : Bool) : ({ s with starved := b } : State).still = s.still := rfl
@[simp] theorem still_choices (ds : List Deadline) (n : Nat) :
    ({ s with atOnce := ds, choices := n } : State).still = s.still := rfl
@[simp] theorem still_reached (ds : List Deadline) : ({ s with reached := ds } : State).still = s.still := rfl
@[simp] theorem still_atOnce (ds : List Deadline) : ({ s with atOnce := ds } : State).still = s.still := rfl

/-! ### Deadlines and entries -/

@[simp] theorem still_lodge (d : Deadline) : (s.lodge d).still = s.still := by
  unfold State.lodge
  split <;> rfl

@[simp] theorem still_placeHolding : (s.placeHolding i h).still = s.still := by
  unfold State.placeHolding
  split <;> simp

@[simp] theorem still_placeWaiter : (s.placeWaiter j w).still = s.still := by
  simp only [State.placeWaiter]
  split <;> simp

@[simp] theorem still_placeFeature : (s.placeFeature code f).still = s.still := by
  unfold State.placeFeature
  split <;> simp

@[simp] theorem still_removeFeature : (s.removeFeature code).still = s.still := rfl

/-! ### Accounts -/

@[simp] theorem still_charge (c : Nat) : (s.charge pool project c evt).still = s.still := by simp [State.charge]

@[simp] theorem still_refund : (s.refund h evt).still = s.still := by simp [State.refund]

/-! ### Grants and scans -/

@[simp] theorem still_grantPath (cost : Nat) : (s.grantPath f a path cost i evt).still = s.still := by
  cases path <;>
    simp [State.grantPath, State.makeHolding, State.mergeHolding, State.reattachHolding, State.chargeJoin] <;>
    split <;> simp

@[simp] theorem still_grantWaiter (cost : Nat) : (s.grantWaiter j f path cost i evt).still = s.still := by
  simp [State.grantWaiter]

@[simp] theorem still_scanWalk (queue : List Nat) : (scanWalk evt queue s).still = s.still := by
  induction queue generalizing s with
  | nil => rfl
  | cons j rest ih =>
    rw [scanWalk]
    split <;> simp [ih]

@[simp] theorem still_scan : (s.scan pool evt).still = s.still := by
  unfold State.scan
  split <;> simp

/-- What every step of a fold keeps, the fold keeps. -/
theorem foldl_keeps {α β γ : Type} (g : α → γ) (step : α → β → α) (h : ∀ x e, g (step x e) = g x) (l : List β)
    (x : α) : g (l.foldl step x) = g x := by
  induction l generalizing x with
  | nil => rfl
  | cons e l ih => rw [List.foldl_cons, ih, h]

/-! ### Waiters -/

@[simp] theorem still_endWaiter (reason : WaiterEnd) : (s.endWaiter j reason evt).still = s.still := by
  simp [State.endWaiter]

@[simp] theorem still_freeWaiterEntry : (s.freeWaiterEntry j).still = s.still := by simp [State.freeWaiterEntry]

@[simp] theorem still_endFeatureWaiters (reason : WaiterEnd) :
    (s.endFeatureWaiters code reason evt).still = s.still := by
  refine foldl_keeps State.still _ (fun x e => ?_) _ _
  split <;> simp

@[simp] theorem still_queueCheckout (wait : Nat) : (s.queueCheckout f a wait j).still = s.still := by
  simp [State.queueCheckout]

/-! ### Endings and deadlines -/

@[simp] theorem still_drain : (s.drain code evt).still = s.still := by simp [State.drain]

@[simp] theorem still_drainReport : (s.drainReport code evt).still = s.still := by
  unfold State.drainReport
  split
  · split <;> simp
  · rfl

@[simp] theorem still_lapse (reason : HoldingEnd) : (s.lapse i reason evt).still = s.still := by simp [State.lapse]

@[simp] theorem still_handleLeaseExpiry (second : Nat) : (s.handleLeaseExpiry i second).still = s.still := by
  simp only [State.handleLeaseExpiry]
  split <;> simp

theorem still_takeAmong {s t : State} {d : Deadline} {ds : List Deadline} (h : s.takeAmong ds = some (d, t)) :
    t.still = s.still := by
  unfold State.takeAmong at h
  split at h <;> cases h <;> rfl

/-- A loop keeps what its acts keep. -/
theorem still_handleLoop {take : State → Option (Deadline × State)} {act : State → Deadline → State}
    (taking : ∀ s d t, take s = some (d, t) → t.still = s.still) (acting : ∀ s d, (act s d).still = s.still) (n : Nat)
    (s : State) : (handleLoop take act n s).still = s.still := by
  induction n generalizing s with
  | zero => rfl
  | succ n ih =>
    rw [handleLoop]
    cases h : take s with
    | none => rfl
    | some dt => rw [ih, acting, taking s dt.1 dt.2 h]

@[simp] theorem still_settleMade (waiting : List Deadline) : (s.settleMade waiting).still = s.still :=
  still_handleLoop (fun _ _ _ h => still_takeAmong h) (fun _ _ => by simp) _ _

/-! ### The pass -/

@[simp] theorem still_scanAll : (s.scanAll evt).still = s.still :=
  foldl_keeps State.still _ (fun _ _ => by simp) _ _

@[simp] theorem still_pass : (s.pass evt).still = s.still := by simp [State.pass]

@[simp] theorem still_entryFreed (asked : Option Nat) : (s.entryFreed asked evt).still = s.still := by
  unfold State.entryFreed
  split
  · simp
  · split <;> simp

/-! ### Endings by which an entry goes to FREE, and reached deadlines -/

@[simp] theorem still_clearEntry : (s.clearEntry i).still = s.still := by simp [State.clearEntry]

@[simp] theorem still_endHolding : (s.endHolding i evt).still = s.still := by simp [State.endHolding]

@[simp] theorem still_handle (d : Deadline) : (s.handle d).still = s.still := by
  unfold State.handle
  cases d.kind
  · simp
  · simp only [State.handleLingerEnd]
    split <;> simp
  · simp only [State.handleBorrowEnd]
    split <;> simp
  · simp only [State.handleWaitDeadline]
    split <;> simp
  · simp only [State.handleFeatureEnd]
    split <;> simp

@[simp] theorem still_settle : s.settle.still = s.still :=
  still_handleLoop (fun _ _ _ h => still_takeAmong h) (fun _ _ => by simp) _ _

/-! ### Fields that the frame gives -/

theorem still_fields {s t : State} (h : t.still = s.still) :
    t.resetLow = s.resetLow ∧ t.admen = s.admen ∧ t.sdo = s.sdo ∧ t.sdoBits = s.sdoBits ∧ t.fifo = s.fifo
      ∧ t.replies = s.replies ∧ t.overrun = s.overrun ∧ t.framing = s.framing ∧ t.service = s.service
      ∧ t.projects = s.projects ∧ t.users = s.users ∧ t.hosts = s.hosts ∧ t.terms = s.terms ∧ t.siteTime = s.siteTime
      ∧ t.timeState = s.timeState ∧ t.divider = s.divider ∧ t.notices = s.notices ∧ t.pending = s.pending := by
  simpa [State.still] using h

end Sys2Proof.Machine
end

