-- ==== Sys2Proof/Laws/Ops.lean ====
section
/-! SUPPORT. One lemma for each shared operation, which says once what it can do. -/

namespace Sys2Proof.Machine

/-! ### Choosing -/

theorem lowestFrom_some {good : Nat → Bool} {n i k : Nat} (h : lowestFrom good n i = some k) :
    i ≤ k ∧ k < i + n ∧ good k = true ∧ ∀ j, i ≤ j → j < k → good j = false := by
  induction n generalizing i with
  | zero => simp [lowestFrom] at h
  | succ n ih =>
    rw [lowestFrom] at h
    split at h
    · cases h
      exact ⟨le_refl _, by omega, by assumption, fun j h1 h2 => by omega⟩
    · obtain ⟨h1, h2, h3, h4⟩ := ih h
      refine ⟨by omega, by omega, h3, fun j hj hk => ?_⟩
      rcases Nat.eq_or_lt_of_le hj with rfl | hj
      · simpa using ‹¬good i = true›
      · exact h4 j hj hk

theorem lowestFrom_none {good : Nat → Bool} {n i : Nat} (h : lowestFrom good n i = none) :
    ∀ j, i ≤ j → j < i + n → good j = false := by
  induction n generalizing i with
  | zero => intro j h1 h2; omega
  | succ n ih =>
    rw [lowestFrom] at h
    split at h
    · cases h
    · intro j hj hk
      rcases Nat.eq_or_lt_of_le hj with rfl | hj
      · simpa using ‹¬good i = true›
      · exact ih h j hj (by omega)

theorem firstBy_mem {α : Type} {before : α → α → Bool} {l : List α} {x : α} (h : firstBy before l = some x) :
    x ∈ l := by
  induction l generalizing x with
  | nil => simp [firstBy] at h
  | cons y l ih =>
    rw [firstBy] at h
    split at h
    · simp_all
    · split at h <;> cases h
      · exact List.mem_cons_of_mem _ (ih ‹_›)
      · simp

theorem firstBy_none {α : Type} {before : α → α → Bool} {l : List α} : firstBy before l = none ↔ l = [] := by
  cases l with
  | nil => simp [firstBy]
  | cons y l =>
    simp only [firstBy]
    split <;> simp
    split <;> simp

/-- In an order that is transitive and total, no element comes before the first one. -/
theorem firstBy_first {α : Type} {before : α → α → Bool}
    (trans : ∀ a b c, before a b = false → before b c = false → before a c = false)
    (asymm : ∀ a b, before a b = true → before b a = false) (irrefl : ∀ a, before a a = false) {l : List α} {x : α}
    (h : firstBy before l = some x) : ∀ y ∈ l, before y x = false := by
  induction l generalizing x with
  | nil => simp [firstBy] at h
  | cons z l ih =>
    rw [firstBy] at h
    split at h
    · rename_i hn
      cases h
      rw [firstBy_none] at hn
      subst hn
      simpa using irrefl _
    · rename_i y hy
      split at h <;> cases h
      · rename_i hb
        intro w hw
        rcases List.mem_cons.mp hw with rfl | hw
        · exact asymm _ _ hb
        · exact ih hy w hw
      · rename_i hb
        intro w hw
        rcases List.mem_cons.mp hw with rfl | hw
        · exact irrefl _
        · exact trans _ _ _ (ih hy w hw) (by simpa using hb)

/-! ### Deadlines that lie ahead -/

theorem lodge_ahead {s : State} {d : Deadline} (h : s.siteTime < d.second) : s.lodge d = s := by
  simp [State.lodge, Nat.not_le.mpr h]

theorem lodge_due {s : State} {d : Deadline} (h : d.second ≤ s.siteTime) :
    s.lodge d = { s with atOnce := s.atOnce ++ [d] } := by
  simp [State.lodge, h]

theorem settle_none {s : State} (h : s.atOnce = []) : s.settle = s := by
  unfold State.settle
  cases s.settleBound with
  | zero => rfl
  | succ n => simp [handleLoop, State.takeDue, State.takeAmong, earliest, h]

/-- Where every deadline to be handled at once waited before the pass, its scans have left nothing to settle. -/
theorem settleMade_waited {s : State} {waiting : List Deadline} (h : ∀ d ∈ s.atOnce, d ∈ waiting) :
    s.settleMade waiting = s := by
  have none_made : s.takeMade waiting = none := by
    have empty : (earliest s.atOnce).filter (fun d => d.kind == .leaseExpiry && !waiting.contains d) = [] := by
      rw [List.filter_eq_nil_iff]
      intro d hd
      simp [h d (List.mem_of_mem_filter hd)]
    rw [State.takeMade, empty, State.takeAmong]
  unfold State.settleMade
  cases s.settleBound with
  | zero => rfl
  | succ n => rw [handleLoop, none_made]

/-- With no deadline waiting for its command, there is nothing to handle before a second is closed. -/
theorem closeSecond_none {s : State} (hr : s.reached = []) (ha : s.atOnce = []) : s.closeSecond = s := by
  have same : ({ s with reached := [], atOnce := s.atOnce ++ s.reached } : State) = s := by
    cases s
    simp_all
  rw [State.closeSecond, same, settle_none ha]

theorem withdraw_atOnce_nil {s : State} (h : s.atOnce = []) (named : Deadline → Bool) :
    (s.withdraw named).atOnce = [] := by
  simp [State.withdraw, h]

/-- The clamp brings a natural value down to the end instant and to the top of site time (R134). -/
theorem clamp_le (f : Feature) (n : Nat) :
    f.clamp n ≤ n ∧ f.clamp n ≤ 4294967295 ∧ ∀ e, f.endInstant = some e → f.clamp n ≤ e := by
  unfold Feature.clamp
  cases h : f.endInstant with
  | none => simp
  | some e => simp [Config.topOfTime]

/-! ### Scans that find no one to serve -/

theorem scan_closed {s : State} (h : s.service = .closed) (pool evt : Nat) : s.scan pool evt = s := by
  simp [State.scan, h]

theorem scan_empty {s : State} {pool : Nat} (h : (s.pool pool).queue = []) (evt : Nat) : s.scan pool evt = s := by
  unfold State.scan
  split <;> simp [h, scanWalk]

theorem scanAll_closed {s : State} (h : s.service = .closed) (evt : Nat) : s.scanAll evt = s := by
  unfold State.scanAll
  induction List.range Config.pools with
  | nil => rfl
  | cons p l ih => rw [List.foldl_cons, scan_closed h, settleMade_waited (fun _ hd => hd), ih]

theorem entryFreed_closed {s : State} (h : s.service = .closed) (asked : Option Nat) (evt : Nat) :
    s.entryFreed asked evt = s := by
  unfold State.entryFreed
  cases asked <;> simp [h, scan_closed h]

theorem entryFreed_quiet {s : State} (hs : s.starved = false) {pool : Nat} (h : (s.pool pool).queue = []) (evt : Nat) :
    s.entryFreed (some pool) evt = s := by
  simp [State.entryFreed, hs, scan_empty h]

/-! ### Bytes and words -/

theorem joinBytes_hi_lo (w : Word) : joinBytes (hiByte w) (loByte w) = w := by
  unfold joinBytes hiByte loByte
  ext i hi
  simp only [BitVec.getElem_append, BitVec.getElem_extractLsb']
  split_ifs with h
  · simp [BitVec.getLsbD_eq_getElem hi]
  · have : 8 + (i - 8) = i := by omega
    simp [this, BitVec.getLsbD_eq_getElem hi]

theorem hiByte_join (hi lo : Byte) : hiByte (joinBytes hi lo) = hi := by
  unfold joinBytes hiByte
  ext i h
  have both := BitVec.getLsbD_append (x := hi) (y := lo) (i := 8 + i)
  simp only [Nat.not_lt.mpr (Nat.le_add_right 8 i), ite_false, Nat.add_sub_cancel_left] at both
  simpa [BitVec.getLsbD_eq_getElem h] using both

theorem loByte_join (hi lo : Byte) : loByte (joinBytes hi lo) = lo := by
  unfold joinBytes loByte
  ext i h
  have both := BitVec.getLsbD_append (x := hi) (y := lo) (i := i)
  simp only [h, ite_true] at both
  simpa [BitVec.getLsbD_eq_getElem h] using both

theorem wordsOf_bytesOf (f : Frame) (more : List Byte) : wordsOf (bytesOf f ++ more) = f ++ wordsOf more := by
  induction f with
  | nil => rfl
  | cons w f ih => simp [bytesOf, wordsOf, joinBytes_hi_lo, ih]

theorem length_bytesOf (f : Frame) : (bytesOf f).length = 2 * f.length := by
  induction f with
  | nil => rfl
  | cons w f ih => simp [bytesOf, ih]; omega

/-- Every run of bytes holds half as many whole words. -/
theorem length_wordsOf : ∀ bytes : List Byte, (wordsOf bytes).length = bytes.length / 2
  | [] => rfl
  | [_] => by simp [wordsOf]
  | _ :: _ :: rest => by simp [wordsOf, length_wordsOf rest]; omega

theorem leadingBits_zero (n : Nat) : leadingBits 0#8 n = List.replicate n false := by
  simp [leadingBits, List.map_const', BitVec.getMsbD]

theorem wordOf_toNat {n : Nat} (h : n < 65536) : (wordOf n).toNat = n := by
  simp [wordOf, Nat.mod_eq_of_lt h]

/-- A 32-bit value is read back from its two words (R170). -/
theorem words32_value {n : Nat} (h : n < 4294967296) :
    (wordOf (n / 65536)).toNat * 65536 + (wordOf n).toNat = n := by
  simp only [wordOf, BitVec.toNat_ofNat]
  omega

end Sys2Proof.Machine
end

