-- ==== Sys2Proof/Laws/Accounts.lean ====
section
/-! SUPPORT. The postings of the Grant Engine in closed form: what a charge, a refund and an edit write, all at once. -/

namespace Sys2Proof.Machine

@[simp] theorem reserveSum_postUsed (s : State) (project pool k : Nat) (u : Nat → Nat) :
    (s.postUsed project pool u).reserveSum k = s.reserveSum k := by
  unfold State.reserveSum State.postUsed State.changeAllotment
  induction s.allotments with
  | nil => rfl
  | cons a l ih =>
    simp only [List.map_cons, List.filter_cons] at ih ⊢
    split <;> split <;> simp_all

theorem setPool_setPool {s : State} (h : TableCanonical Pool.initial s.pools) (p : Nat) (q r : Pool) :
    (s.setPool p q).setPool p r = s.setPool p r := by
  simp [State.setPool, tablePut_put h]

theorem setPool_postUsed (s : State) (p project pool : Nat) (q : Pool) (u : Nat → Nat) :
    (s.postUsed project pool u).setPool p q = (s.setPool p q).postUsed project pool u := rfl

/-- A charge adds its tokens to the pool's used and to the allotment's, and recomputes the over state (R57, R47). -/
theorem charge_eq {s : State} (h : TableCanonical Pool.initial s.pools) (pool project c evt : Nat) :
    s.charge pool project c evt =
      (s.setPool pool
        (Pool.recomputed { s.pool pool with used := (s.pool pool).used + c } (s.reserveSum pool) evt)).postUsed
        project pool (fun used => used + c) := by
  simp only [State.charge, State.recomputeOver, reserveSum_postUsed, pool_postUsed, pool_setPool, ite_true,
    reserveSum_setPool, setPool_postUsed, setPool_setPool h]

/-- A refund takes the holding's tokens out of the figures that its state had put them in, and recomputes the over state
(R59, R47). -/
theorem refund_eq {s : State} (h : TableCanonical Pool.initial s.pools) (x : Holding) (evt : Nat) :
    s.refund x evt =
      (s.setPool x.pool
        (Pool.recomputed
          { s.pool x.pool with
            used := (s.pool x.pool).used - x.tokens
            borrowed := if x.state = .borrowed then (s.pool x.pool).borrowed - x.tokens else (s.pool x.pool).borrowed
            lingering :=
              if x.state = .lingering then (s.pool x.pool).lingering - x.tokens else (s.pool x.pool).lingering }
          (s.reserveSum x.pool) evt)).postUsed
        x.project x.pool (fun used => used - x.tokens) := by
  simp only [State.refund, State.recomputeOver, reserveSum_postUsed, pool_postUsed, pool_setPool, ite_true,
    reserveSum_setPool, setPool_postUsed, setPool_setPool h]

end Sys2Proof.Machine
end

