-- ==== Sys2Proof/Laws/Served.lean ====
section
/-! SUPPORT. What the owner of a request leaves to the Request Decoder: the link as it was, and a body of at most
seventeen words. -/

namespace Sys2Proof.Machine

/-- The part of the state that no owner of a request changes: the link, the lines and the queue of commands. -/
def State.linked (s : State) : State :=
  { s.still with
    service := .closed
    projects := []
    users := []
    hosts := []
    terms := []
    siteTime := 0
    timeState := .unset
    divider := 0
    notices := NoticeSettings.initial }

theorem linked_of_still {s t : State} (h : t.still = s.still) : t.linked = s.linked := by
  unfold State.linked
  rw [h]

/-- What an owner may answer: the link as it was, and a reply that fits. -/
def Served (s : State) (served : State × Answer) : Prop :=
  served.1.linked = s.linked ∧ served.2.body.length ≤ 17

theorem Served.refused (s : State) (code : ReplyCode) (detail : Nat) : Served s (s, plain code detail) :=
  ⟨rfl, by simp [plain]⟩

theorem Served.of_still {s t : State} {a : Answer} (h : t.still = s.still) (hb : a.body.length ≤ 17) :
    Served s (t, a) :=
  ⟨linked_of_still h, hb⟩

@[simp] theorem length_words32 (n : Nat) : (words32 n).length = 2 := rfl

@[simp] theorem length_plain (code : ReplyCode) (detail : Nat) : (plain code detail).body.length = 0 := rfl

theorem length_grantAnswer (before after : State) (a : Asking) (path : Path) (i : Nat) :
    (grantAnswer before after a path i).body.length = 7 := by
  cases path <;> rfl

variable (f : Frame) (s : State)

/-! ### Client requests -/

theorem decideCheckout_served (x : Feature) (a : Asking) (wait : Nat) : Served s (s.decideCheckout x a wait) := by
  simp only [State.decideCheckout]
  split
  · exact Served.refused ..
  · split
    · simp only [State.holdBack]
      split
      · exact Served.refused ..
      · split
        · exact Served.refused ..
        · exact Served.of_still (by simp) (by simp)
    · split
      · exact Served.refused ..
      · exact Served.of_still (by simp) (by rw [length_grantAnswer]; omega)

theorem checkoutRefusal_plain {a : Asking} {answer : Answer} (h : s.checkoutRefusal a = some answer) :
    answer.body = [] := by
  unfold State.checkoutRefusal at h
  split at h
  · cases h; rfl
  · simp only at h
    split_ifs at h <;> cases h <;> rfl

theorem checkout_served : Served s (serveCheckout f s) := by
  simp only [serveCheckout]
  split
  · exact Served.refused ..
  · split
    · exact Served.refused ..
    · split
      · exact ⟨rfl, by simp [checkoutRefusal_plain s (by assumption)]⟩
      · exact decideCheckout_served ..

theorem renew_served : Served s (serveRenew f s) := by
  simp only [serveRenew, State.renewHolding]
  repeat' split
  all_goals first | exact Served.refused .. | exact Served.of_still (by simp) (by simp)

theorem releaseLast_served (i : Nat) (h : Holding) (now : Bool) : Served s (s.releaseLast i h now) := by
  simp only [State.releaseLast]
  split <;> exact Served.of_still (by simp) (by simp)

theorem release_served : Served s (serveRelease f s) := by
  simp only [serveRelease, State.releaseHolding]
  repeat' split
  all_goals first
    | exact Served.refused ..
    | exact releaseLast_served ..
    | exact Served.of_still (by simp) (by simp)

theorem borrow_served : Served s (serveBorrow f s) := by
  simp only [serveBorrow, State.borrowHolding, State.convert]
  repeat' split
  all_goals first | exact Served.refused .. | exact Served.of_still (by simp) (by simp)

theorem return_served : Served s (serveReturn f s) := by
  simp only [serveReturn, State.returnHolding]
  repeat' split
  all_goals first | exact Served.refused .. | exact Served.of_still (by simp) (by simp)

theorem cancelWait_served : Served s (serveCancelWait f s) := by
  simp only [serveCancelWait, State.cancelWaiter]
  repeat' split
  all_goals first | exact Served.refused .. | exact Served.of_still (by simp) (by simp)

theorem queryHolding_served : Served s (serveQueryHolding f s) := by
  simp only [serveQueryHolding, holdingBody]
  repeat' split
  all_goals first | exact Served.refused .. | exact Served.of_still rfl (by simp)

theorem length_allotmentWords (x : Option Allotment) : (allotmentWords x).length = 4 := by cases x <;> rfl

theorem queryPool_served : Served s (serveQueryPool f s) := by
  simp only [serveQueryPool, State.poolBody]
  repeat' split
  all_goals first | exact Served.refused .. | exact Served.of_still rfl (by simp [length_allotmentWords])

/-! ### Notices -/

theorem still_consume (k : NoticeKind) (time index : Nat) :
    (s.consume k time index).still = s.still := by
  cases k <;> (simp only [State.consume]; first | rfl | simp)

theorem length_reportWords (k : NoticeKind) (time index : Nat) : (s.reportWords k time index).length ≤ 13 := by
  cases k <;> simp [State.reportWords, ticketWords]

theorem report_served (k : NoticeKind) : Served s (s.report k) := by
  unfold State.report
  split
  · exact Served.refused ..
  · rename_i time index _
    refine Served.of_still (still_consume ..) ?_
    have fits := length_reportWords s k time index
    simp only [List.length_cons]
    omega

theorem nextNotice_served : Served s (serveNextNotice f s) := by
  simp only [serveNextNotice]
  repeat' split
  all_goals first | exact Served.refused .. | exact report_served ..

theorem setNoticeLevels_served : Served s (serveSetNoticeLevels f s) := by
  simp only [serveSetNoticeLevels]
  split
  · exact Served.refused ..
  · exact ⟨rfl, by simp [noticeKinds]⟩

/-! ### Time -/

theorem linked_closeSecond : s.closeSecond.linked = s.linked := by
  rw [State.closeSecond, linked_of_still (still_settle _)]
  rfl

theorem linked_stepTo (v : Nat) : (s.stepTo v).linked = s.linked := by
  simp only [State.stepTo]
  rw [linked_of_still (still_settle _)]
  exact linked_closeSecond (s := s)

theorem setTime_served : Served s (serveSetTime f s) := by
  simp only [serveSetTime]
  split
  · exact ⟨linked_stepTo .., by simp [timeAnswer]⟩
  split
  · exact ⟨linked_stepTo .., by simp [timeAnswer]⟩
  repeat' split
  all_goals exact ⟨rfl, by simp [timeAnswer]⟩

/-! ### Admin requests -/

theorem openService_served : Served s (serveOpenService f s) := by
  simp only [serveOpenService]
  repeat' split
  · exact Served.refused ..
  · exact Served.refused ..
  · refine ⟨?_, by simp [okay]⟩
    rw [linked_of_still (still_settle _), linked_of_still (still_pass _ _)]
    rfl

theorem closeService_served : Served s (serveCloseService f s) := by
  simp only [serveCloseService]
  split
  · exact Served.refused ..
  · exact ⟨rfl, by simp [okay]⟩

@[simp] theorem still_afterEdit (pool : Nat) (recompute asked : Bool) :
    (s.afterEdit pool recompute asked).still = s.still := by
  simp only [State.afterEdit]
  split <;> split <;> simp

theorem definePool_served : Served s (serveDefinePool f s) := by
  simp only [serveDefinePool]
  split
  · exact Served.refused ..
  · exact Served.of_still (by simp) (by simp [okay])

theorem defineProject_served : Served s (serveDefineProject f s) := by
  simp only [serveDefineProject]
  repeat' split
  all_goals exact Served.refused ..

theorem removeProject_served : Served s (serveRemoveProject f s) := by
  simp only [serveRemoveProject]
  repeat' split
  all_goals exact Served.refused ..

@[simp] theorem still_replaceAllotment (a : Allotment) (reserve : Nat) (cap : Option Nat) :
    (s.replaceAllotment a reserve cap).still = s.still := by simp [State.replaceAllotment]

@[simp] theorem still_allotments (l : List Allotment) : ({ s with allotments := l } : State).still = s.still := rfl

theorem defineAllotment_served : Served s (serveDefineAllotment f s) := by
  simp only [serveDefineAllotment]
  repeat' split
  all_goals first | exact Served.refused .. | exact Served.of_still (by simp) (by simp [okay])

theorem removeAllotment_served : Served s (serveRemoveAllotment f s) := by
  simp only [serveRemoveAllotment]
  repeat' split
  all_goals first | exact Served.refused .. | exact Served.of_still (by simp) (by simp [okay])

@[simp] theorem still_reclamp (code e : Nat) : (s.reclamp code e).still = s.still := by
  simp only [State.reclamp]
  rw [foldl_keeps State.still, foldl_keeps State.still]
  all_goals
    intro x e
    split <;> simp

@[simp] theorem still_replaceFeature (code : Nat) (old new : Feature) :
    (s.replaceFeature code old new).still = s.still := by
  simp only [State.replaceFeature]
  split
  · simp
  · split <;> simp

theorem defineFeature_served : Served s (serveDefineFeature f s) := by
  simp only [serveDefineFeature]
  repeat' split
  all_goals first | exact Served.refused .. | exact Served.of_still (by simp) (by simp [okay])

@[simp] theorem still_retire (code : Nat) (x : Feature) : (s.retire code x).still = s.still := by simp [State.retire]

theorem retireFeature_served : Served s (serveRetireFeature f s) := by
  simp only [serveRetireFeature]
  repeat' split
  all_goals first | exact Served.refused .. | exact Served.of_still (by simp) (by simp [okay])

theorem queryFeature_served : Served s (serveQueryFeature f s) := by
  simp only [serveQueryFeature, State.featureBody]
  repeat' split
  all_goals first | exact Served.refused .. | exact Served.of_still rfl (by simp)

theorem writeTerms_served : Served s (serveWriteTerms f s) := by
  simp only [serveWriteTerms]
  repeat' split
  all_goals exact Served.refused ..

theorem defineUser_served : Served s (serveDefineUser f s) := by
  simp only [serveDefineUser]
  repeat' split
  all_goals exact Served.refused ..

theorem defineHost_served : Served s (serveDefineHost f s) := by
  simp only [serveDefineHost]
  repeat' split
  all_goals exact Served.refused ..

@[simp] theorem still_emptied : s.emptied.still = s.still := rfl

@[simp] theorem still_recomputeAll (evt : Nat) : (s.recomputeAll evt).still = s.still :=
  foldl_keeps State.still _ (fun _ _ => by simp) _ _

@[simp] theorem still_drainAll (evt : Nat) : (s.drainAll evt).still = s.still := by
  refine foldl_keeps State.still _ (fun x e => ?_) _ _
  split <;> simp

theorem clearHoldings_served : Served s (serveClearHoldings f s) := by
  simp only [serveClearHoldings]
  split
  · exact Served.refused ..
  · exact Served.of_still (by simp) (by simp [okay])

end Sys2Proof.Machine
end

