-- ==== Sys2Proof/Laws/Decoder.lean ====
section
/-! SUPPORT. The one path by which every request is answered: the frame taken, judged, passed to its owner, and its
reply placed. -/

namespace Sys2Proof.Machine

/-- The decoder can take the oldest frame when RESETn is released and the reply queue has a free place (R166). -/
theorem takeFrame_some {s : State} {f : Frame} {rest : List Frame} (released : s.resetLow = false)
    (place : s.replies.length < 16) (front : s.fifo = f :: rest) : s.takeFrame = some (f, s.leaving rest) := by
  have taken : ¬(s.resetLow = true ∨ Config.linkFrames ≤ s.replies.length) := by
    simp only [released, Config.linkFrames]
    simpa using place
  unfold State.takeFrame
  rw [if_neg taken, front]

/-- The decoder can take no frame while the reply queue is full or the FIFO is empty (R166). -/
theorem takeFrame_none {s : State} (h : 16 ≤ s.replies.length ∨ s.fifo = []) : s.takeFrame = none := by
  rcases h with h | h <;> simp [State.takeFrame, h]

theorem serveKind_taken {s : State} {f : Frame} {t : State} (h : s.takeFrame = some (f, t)) {kind : Nat}
    (hk : kindCode f = kind) (owner : Frame → State → State × Answer) :
    serveKind kind owner s = .next (answerFrame owner f t) := by
  simp [serveKind, h, hk]

/-- A frame of a known kind and a length it takes reaches its owner, an admin frame while ADMEN is asserted (R167). -/
theorem judge_owner {f : Frame} {s : State} (hl : lengthTaken (kindCode f) f.length = true)
    (hk : clientKind (kindCode f) = true ∨ (adminKind (kindCode f) = true ∧ s.admen = true))
    (owner : Frame → State → State × Answer) : judge owner f s = owner f s := by
  unfold judge
  rcases hk with hk | ⟨hk, ha⟩
  · have : adminKind (kindCode f) = false := by
      simp only [clientKind, adminKind, Bool.and_eq_true, decide_eq_true_eq, Bool.and_eq_false_iff,
        decide_eq_false_iff_not] at *
      omega
    simp [hk, hl, this]
  · simp [hk, hl, ha]

/-- A request that its owner serves: the owner's changes, and one reply behind those in the queue (R166, R167). -/
theorem serveKind_served {s : State} {f : Frame} {rest : List Frame} (released : s.resetLow = false)
    (place : s.replies.length < 16) (front : s.fifo = f :: rest) {kind : Nat} (hk : kindCode f = kind)
    (hl : lengthTaken kind f.length = true)
    (hc : clientKind kind = true ∨ (adminKind kind = true ∧ s.admen = true))
    {owner : Frame → State → State × Answer} {t : State} {a : Answer} (ho : owner f (s.leaving rest) = (t, a)) :
    serveKind kind owner s = .next (t.placeReply (replyFrame f a)) := by
  subst hk
  rw [serveKind_taken (takeFrame_some released place front) rfl, answerFrame, judge_owner (s := s.leaving rest) hl hc,
    ho]

end Sys2Proof.Machine
end

