-- ==== Sys2Proof/Laws/Drained.lean ====
section
/-! SUPPORT. What the drained list holds after a record is added, and what a transaction that sends nothing of its own
shifts out. -/

namespace Sys2Proof.Machine

/-- A record stands behind another (R20, R147): by a later event time, or by the same and a higher code. -/
def Drained.behind (d x : Drained) : Bool :=
  decide (d.eventTime < x.eventTime ∨ (d.eventTime = x.eventTime ∧ d.feature < x.feature))

theorem behind_iff (d x : Drained) :
    d.behind x = true ↔ d.eventTime < x.eventTime ∨ (d.eventTime = x.eventTime ∧ d.feature < x.feature) :=
  decide_eq_true_iff

theorem notAfter_eq (d x : Drained) : x.notAfter d = !d.behind x := by
  simp [Drained.notAfter, timeThenIndex, Drained.behind, Bool.decide_or, Bool.decide_and, beq_eq_decide]

theorem mem_insertDrained (d x : Drained) (l : List Drained) : x ∈ insertDrained d l ↔ x = d ∨ x ∈ l := by
  conv_rhs => rw [← List.takeWhile_append_dropWhile (p := fun y => y.notAfter d) (l := l)]
  simp only [insertDrained, List.mem_append, List.mem_cons]
  tauto

theorem length_insertDrained (d : Drained) (l : List Drained) : (insertDrained d l).length = l.length + 1 := by
  have h := congrArg List.length (List.takeWhile_append_dropWhile (p := fun y => y.notAfter d) (l := l))
  rw [List.length_append] at h
  simp only [insertDrained, List.length_append, List.length_cons]
  omega

/-- In an ordered list the records up to the new one's place are those that do not stand behind it. -/
theorem split_ordered (d : Drained) {l : List Drained}
    (h : l.Pairwise (fun a b => a.eventTime < b.eventTime ∨ (a.eventTime = b.eventTime ∧ a.feature ≤ b.feature))) :
    l.takeWhile (fun x => x.notAfter d) = l.filter (fun x => !d.behind x)
      ∧ l.dropWhile (fun x => x.notAfter d) = l.filter d.behind := by
  induction l with
  | nil => exact ⟨rfl, rfl⟩
  | cons x l ih =>
    rw [List.pairwise_cons] at h
    obtain ⟨hx, hl⟩ := h
    cases hb : d.behind x with
    | true =>
      have all : ∀ y ∈ l, d.behind y = true := fun y hy => by
        have := hx y hy
        rw [behind_iff] at *
        omega
      simp only [List.takeWhile_cons, List.dropWhile_cons, List.filter_cons, notAfter_eq, hb, Bool.not_true,
        Bool.false_eq_true, if_true, if_false]
      exact ⟨(List.filter_eq_nil_iff.mpr fun y hy => by rw [all y hy]; nofun).symm,
        congrArg _ (List.filter_eq_self.mpr all).symm⟩
    | false =>
      simp only [notAfter_eq] at ih
      simp [notAfter_eq, hb, ih hl]

/-- Adding a record keeps the list in order (R20, R147). -/
theorem addDrained_ordered {s : State} (h : DrainedOrdered s) (d : Drained) : DrainedOrdered (s.addDrained d) := by
  have hk : (if Config.drainedRecords ≤ s.drained.length then s.drained.tail else s.drained).Pairwise
      (fun a b => a.eventTime < b.eventTime ∨ (a.eventTime = b.eventTime ∧ a.feature ≤ b.feature)) := by
    split
    · exact h.sublist (List.tail_sublist _)
    · exact h
  show (insertDrained d _).Pairwise _
  rw [insertDrained, (split_ordered d hk).1, (split_ordered d hk).2, List.pairwise_append, List.pairwise_cons]
  refine ⟨hk.filter _, ⟨fun y hy => ?_, hk.filter _⟩, fun x hx y hy => ?_⟩
  · have := (behind_iff d y).mp (List.mem_filter.mp hy).2
    omega
  · have hb : ¬d.behind x = true := by simpa using (List.mem_filter.mp hx).2
    rw [behind_iff] at hb
    rcases List.mem_cons.mp hy with rfl | hy
    · omega
    · have := (behind_iff d y).mp (List.mem_filter.mp hy).2
      omega

/-- A transaction that sends nothing of its own shifts out the status byte and then 00h, to the bit (R157, R159). -/
theorem shiftOut_nothing (s : State) (clocked : Clocked) :
    s.shiftOut [] clocked =
      { s with
        sdo := s.statusByte :: List.replicate clocked.bytes 0#8
        sdoBits := List.replicate clocked.cut.val false } := by
  simp [State.shiftOut, leadingBits_zero]

end Sys2Proof.Machine
end

