-- ==== Sys2Proof/WellFormed.lean ====
section
/-! DEFINITION. Which commands are commands of the part: operands inside the ranges that the spec gives them. -/

namespace Sys2Proof

/-- A command byte of BAD_COMMAND_BYTE is none of 01h, 02h and 03h; where SELn rose before it was complete, no byte
follows it (R164). -/
def badCommandOperands (command : Option Byte) (sdi : List Byte) : Bool :=
  match command with
  | none => sdi.isEmpty
  | some b => b != 1#8 && b != 2#8 && b != 3#8

/-- A holding entry is 0..8191 (R64), a waiter entry 0..255 (R106) and a feature code 1..65535 (R13). -/
def Instr.wellFormed (i : Instr) : Bool :=
  match i with
  | .writeFrame _ => true
  | .readFrame _ => true
  | .readStatus _ => true
  | .badCommandByte command sdi => badCommandOperands command sdi.bytes
  | .deviceReset => true
  | .resetRelease => true
  | .admenChange _ => true
  | .siteTimeAdvance => true
  | .leaseExpiry entry => entry < Config.holdingEntries
  | .lingerEnd entry => entry < Config.holdingEntries
  | .borrowEnd entry => entry < Config.holdingEntries
  | .waitDeadline entry => entry < Config.waiterEntries
  | .featureEndInstant code => 1 ≤ code && code ≤ 65535
  | .badRequest => true
  | .checkout => true
  | .renew => true
  | .release => true
  | .borrow => true
  | .giveBack => true
  | .cancelWait => true
  | .queryHolding => true
  | .queryPool => true
  | .nextNotice => true
  | .setTime => true
  | .openService => true
  | .closeService => true
  | .definePool => true
  | .defineProject => true
  | .removeProject => true
  | .defineAllotment => true
  | .removeAllotment => true
  | .defineFeature => true
  | .retireFeature => true
  | .queryFeature => true
  | .writeTerms => true
  | .defineUser => true
  | .defineHost => true
  | .setNoticeLevels => true
  | .clearHoldings => true
  | .refclkPeriod => true

end Sys2Proof
end

