-- ==== Sys2Proof/Tests/Slice0.lean ====
section
/-! SUPPORT. Tests of the model: the smoke tests of WellFormed, one or two steps of each command with the results that
the spec's rules and worked sequences give, and a witness for the hypotheses of each obligation. -/

namespace Sys2Proof.Tests

open Sys2Proof Sys2Proof.Machine Sys2Proof.Claims

/-! ### Helpers -/

/-- The state after a command; every command answers a next state. -/
def after (i : Instr) (s : State) : State :=
  match exec i s with
  | .next t => t
  | .fault _ => s
  | .refused _ => s

/-- A state whose request FIFO holds one frame. -/
def State.asked (s : State) (f : Frame) : State := { s with fifo := [f] }

/-- The feature 0900h of section 11.1. -/
def farm : Feature :=
  { state := .active, pool := 3, weight := 8, sharing := .separate, startDay := 0, endDay := none, lease := 1800,
    linger := 0, borrowMax := 0, chain := none, endLodged := false }

/-- Sections 11.1 and 11.2: the part as the first sequence leaves it, at a site time. -/
def farmSite (t : Nat) : State :=
  { State.reset with
    admen := true
    service := .opened
    siteTime := t
    timeState := .set
    projects := [0x301]
    pools := [(3, { Pool.initial with capacity := 48 })]
    allotments := [{ project := 0x301, pool := 3, reserve := 12, cap := some 24, used := 0 }]
    features := [(0x900, farm)]
    users := [(0x301, ⟨0#16, .enabled, 1⟩), (0x355, ⟨0#16, .enabled, 3⟩)] }

/-- A LIVE holding of one reference. -/
def live (feature pool user host seats tokens deadline : Nat) : Holding :=
  { Holding.freeEntry 1 with
    state := .live, feature := feature, pool := pool, user := user, host := host, seats := seats, refs := 1,
    tokens := tokens, deadline := deadline }

/-- A WAITING waiter. -/
def waiting (feature user host seats cls deadline : Nat) : Waiter :=
  { Waiter.freeEntry 1 with
    state := .waiting, feature := feature, user := user, host := host, seats := seats, cls := cls,
    deadline := deadline }

/-- Section 11.2 after step 6: J1, J2 and J5 LIVE, J3 and J4 queued, pool 3 over. -/
def surge : State :=
  { farmSite 10370200 with
    pools := [(3, { Pool.initial with capacity := 36, used := 40, isOver := true, overMark := some 10370100,
                                      queue := [0, 1] })]
    allotments := [{ project := 0x301, pool := 3, reserve := 12, cap := some 24, used := 8 }]
    holdings :=
      [(0, live 0x900 3 0x301 5 2 16 10371800), (1, live 0x900 3 0x301 5 2 16 10371810),
        (2, { live 0x900 3 0x355 5 1 8 10371840 with project := 0x301 })]
    waiters :=
      [(0, waiting 0x900 0x301 5 2 1 10371220), (1, { waiting 0x900 0x304 5 1 0 10370630 with project := 0x301 })] }

/-- Section 11.3: entry 5 LIVE and a waiter in the queue of pool 8. -/
def lingerSite (t : Nat) : State :=
  { State.reset with
    service := .opened
    siteTime := t
    timeState := .set
    pools := [(8, { Pool.initial with capacity := 30, used := 30, queue := [9] })]
    features := [(0xA20, { farm with pool := 8, weight := 10, sharing := .user, lease := 3600, linger := 600 })]
    holdings := [(5, { live 0xA20 8 0x501 1400 2 20 7203000 with gen := 3 }), (6, live 0xA20 8 0x509 1 1 10 7203500)]
    waiters := [(9, { waiting 0xA20 0x502 1 1 0 7203000 with gen := 4 })] }

/-- Section 11.4: entry 30 LIVE for two windows. -/
def travelSite (t refs : Nat) : State :=
  { State.reset with
    service := .opened
    siteTime := t
    timeState := .set
    pools := [(10, { Pool.initial with capacity := 24, borrowCap := 8, used := 24 })]
    features := [(0xB30, { farm with pool := 10, sharing := .station, lease := 3600, borrowMax := 7 })]
    holdings :=
      [(30, { live 0xB30 10 0x601 1500 1 8 8003600 with gen := 2, refs := refs }),
        (31, live 0xB30 10 0x609 1 2 16 8704000)] }

/-- Section 11.5: two LIVE holdings and a waiter, before the forward step. -/
def gapSite (service : Service) : State :=
  { State.reset with
    admen := true
    service := service
    siteTime := 9000000
    timeState := .set
    pools := [(2, { Pool.initial with capacity := 16, used := 16, queue := [3] })]
    features := [(0xC50, { farm with pool := 2, sharing := .station })]
    holdings := [(70, live 0xC50 2 1 1 1 8 9001000), (71, live 0xC50 2 2 1 1 8 9004000)]
    waiters := [(3, waiting 0xC50 3 1 1 0 9002000)] }

/-! ### WellFormed refuses what is ill formed -/

theorem test_wellFormed_badCommandByte_write : (Instr.badCommandByte (some 1#8) ⟨[], 0⟩).wellFormed = false := by
  decide
theorem test_wellFormed_badCommandByte_read : (Instr.badCommandByte (some 2#8) ⟨[], 0⟩).wellFormed = false := by
  decide
theorem test_wellFormed_badCommandByte_status : (Instr.badCommandByte (some 3#8) ⟨[], 0⟩).wellFormed = false := by
  decide
theorem test_wellFormed_badCommandByte_cut : (Instr.badCommandByte none ⟨[0#8], 0⟩).wellFormed = false := by decide
theorem test_wellFormed_leaseExpiry : (Instr.leaseExpiry 8192).wellFormed = false := by decide
theorem test_wellFormed_lingerEnd : (Instr.lingerEnd 8192).wellFormed = false := by decide
theorem test_wellFormed_borrowEnd : (Instr.borrowEnd 8192).wellFormed = false := by decide
theorem test_wellFormed_waitDeadline : (Instr.waitDeadline 256).wellFormed = false := by decide
theorem test_wellFormed_featureEnd_zero : (Instr.featureEndInstant 0).wellFormed = false := by decide
theorem test_wellFormed_featureEnd_high : (Instr.featureEndInstant 65536).wellFormed = false := by decide
theorem test_wellFormed_accepts :
    (Instr.leaseExpiry 8191).wellFormed ∧ (Instr.waitDeadline 255).wellFormed
      ∧ (Instr.featureEndInstant 65535).wellFormed ∧ (Instr.badCommandByte none ⟨[], 0⟩).wellFormed
      ∧ (Instr.badCommandByte (some 0x9F#8) ⟨[1#8], 0⟩).wellFormed := by
  decide

/-! ### The link and the lines -/

/-- R160: a whole frame joins the FIFO, and bytes after it are discarded. -/
theorem test_writeFrame_joins :
    (after (.writeFrame ⟨[0x21#8, 0x02#8, 0x00#8, 0x77#8, 0xFF#8], 0⟩) State.reset).fifo =
      [[0x2102#16, 0x0077#16]] := by
  decide

/-- R160: a length of 41 sets the framing flag and stores nothing. -/
theorem test_writeFrame_length :
    (after (.writeFrame ⟨[0x01#8, 0x29#8, 0x00#8], 0⟩) State.reset).framing
      ∧ (after (.writeFrame ⟨[0x01#8, 0x29#8, 0x00#8], 0⟩) State.reset).fifo = [] := by
  decide

/-- R161, R174: the status byte with ROOM and REPLY, then the oldest reply, high byte first. -/
theorem test_readFrame_reply :
    (after (.readFrame ⟨7, 0⟩) { State.reset with replies := [[0x2103#16, 0x0077#16, 0x3500#16], [0x2203#16]] }).sdo =
      [0xC0#8, 0x21#8, 0x03#8, 0x00#8, 0x77#8, 0x35#8, 0x00#8, 0x00#8] := by
  decide

/-- R157: cut seven bits into the second byte of the reply, the host has read seven bits of 03h, the most significant
first. -/
theorem test_readFrame_cut :
    (after (.readFrame ⟨1, 7⟩) { State.reset with replies := [[0x2103#16, 0x0077#16, 0x3500#16]] }).sdoBits =
      [false, false, false, false, false, false, true] := by
  decide

/-- R162: with no reply the host reads an EMPTY frame. -/
theorem test_readFrame_empty :
    (after (.readFrame ⟨6, 0⟩) State.reset).sdo = [0x80#8, 0x00#8, 0x03#8, 0x00#8, 0x00#8, 0x00#8, 0x00#8] := by
  decide

/-- Section 11.1, steps 1 and 2: 80h twice after reset, 84h with ADMEN asserted. -/
theorem test_readStatus_reset :
    (after (.readStatus ⟨1, 0⟩) State.reset).sdo = [0x80#8, 0x80#8]
      ∧ (after (.readStatus ⟨1, 0⟩) { State.reset with admen := true }).sdo = [0x84#8, 0x84#8] := by
  decide

/-- R163: both flags are reported, in bits 4 and 3, and then cleared. -/
theorem test_readStatus_clears :
    (after (.readStatus ⟨1, 0⟩) { State.reset with overrun := true, framing := true }).sdo = [0x98#8, 0x98#8]
      ∧ (after (.readStatus ⟨1, 0⟩) { State.reset with overrun := true, framing := true }).framing = false := by
  decide

/-- R164: an unknown command byte sets the framing flag. -/
theorem test_badCommandByte :
    (after (.badCommandByte (some 0x04#8) ⟨[0#8], 0⟩) State.reset).framing
      ∧ (after (.badCommandByte (some 0x04#8) ⟨[0#8], 0⟩) State.reset).sdo = [0x80#8, 0x00#8] := by
  decide

/-- R164, R157: cut after three bits of the command byte, the host has read 1, 0, 0 of the status byte 80h. -/
theorem test_badCommandByte_cut :
    (after (.badCommandByte none ⟨[], 3⟩) State.reset).framing
      ∧ (after (.badCommandByte none ⟨[], 3⟩) State.reset).sdo = []
      ∧ (after (.badCommandByte none ⟨[], 3⟩) State.reset).sdoBits = [true, false, false] := by
  decide

/-- R169: reset empties the tables. -/
theorem test_deviceReset :
    (after .deviceReset surge).holdings = [] ∧ (after .deviceReset surge).service = .closed
      ∧ (after .deviceReset surge).resetLow := by
  decide

/-- R169: releasing RESETn leaves the device-reset state. -/
theorem test_resetRelease : after .resetRelease (after .deviceReset State.reset) = State.reset := by decide

/-- R168: the status byte reports the level. -/
theorem test_admenChange : (after (.admenChange true) State.reset).statusByte = 0x84#8 := by decide

/-! ### The clock and its deadlines -/

/-- R129: the period that would take the divider past 32767 advances site time. -/
theorem test_refclkPeriod :
    (after .refclkPeriod { farmSite 10 with divider := 32767 }).siteTime = 11
      ∧ (after .refclkPeriod { farmSite 10 with divider := 32766 }).divider = 32767 := by
  decide

/-- R129, R132: the advance reaches the deadline equal to the new second. -/
theorem test_siteTimeAdvance :
    (after .siteTimeAdvance { gapSite .opened with siteTime := 9000999 }).reached = [⟨9001000, .leaseExpiry, 70⟩] := by
  decide

/-- R129: at its top site time stands. -/
theorem test_siteTimeAdvance_top : (after .siteTimeAdvance (farmSite 4294967295)).siteTime = 4294967295 := by decide

/-- Section 11.5: entry 70 lapses, its refund pays for the waiter's holding, and used stands at 16. -/
theorem test_leaseExpiry :
    let s := after (.leaseExpiry 70)
      { gapSite .opened with siteTime := 9001000, reached := [⟨9001000, .leaseExpiry, 70⟩] }
    (s.holding 70).state = .lapsed ∧ (s.holding 70).endReason = some .lease ∧ (s.holding 70).eventTime = 9001000
      ∧ (s.holding 0).state = .live ∧ (s.waiter 3).state = .granted ∧ (s.pool 2).used = 16 := by
  decide

/-- Section 11.3: the linger end frees entry 5, which takes generation 4, and the waiter takes the lowest FREE entry. -/
theorem test_lingerEnd :
    let s := after (.lingerEnd 5)
      { lingerSite 7200600 with
        holdings := [(0, live 1 1 1 1 1 0 7300000), (1, live 1 1 1 1 1 0 7300000), (2, live 1 1 1 1 1 0 7300000),
          (3, live 1 1 1 1 1 0 7300000), (4, live 1 1 1 1 1 0 7300000),
          (5, { live 0xA20 8 0x501 1400 2 20 7200600 with gen := 3, state := .lingering, refs := 0 })]
        pools := [(8, { Pool.initial with capacity := 30, used := 30, lingering := 20, queue := [9] })]
        reached := [⟨7200600, .lingerEnd, 5⟩] }
    (s.holding 5).gen = 4 ∧ (s.holding 5).user = 0x502 ∧ (s.pool 8).used = 20 ∧ (s.pool 8).lingering = 0 := by
  decide

/-- Section 11.4: the borrow end lapses entry 30 and refunds used and borrowed. -/
theorem test_borrowEnd :
    let s := after (.borrowEnd 30)
      { travelSite 8604900 1 with
        holdings := [(30, { live 0xB30 10 0x601 1500 1 8 8604900 with gen := 2, state := .borrowed })]
        pools := [(10, { Pool.initial with capacity := 24, borrowCap := 8, used := 24, borrowed := 8 })]
        reached := [⟨8604900, .borrowEnd, 30⟩] }
    (s.holding 30).state = .lapsed ∧ (s.holding 30).endReason = some .borrowEnd ∧ (s.pool 10).used = 16
      ∧ (s.pool 10).borrowed = 0 := by
  decide

/-- Section 11.5, right column: the waiter ends with reason TIMEOUT at its deadline. -/
theorem test_waitDeadline :
    let s := after (.waitDeadline 3)
      { gapSite .closed with siteTime := 9002000, reached := [⟨9002000, .waitDeadline, 3⟩] }
    (s.waiter 3).state = .ended ∧ (s.waiter 3).endReason = some .timeout ∧ (s.waiter 3).eventTime = 9002000
      ∧ (s.pool 2).queue = [] := by
  decide

/-- R19: at the feature's end instant its waiter ends with reason EXPIRED; the feature stays. -/
theorem test_featureEndInstant :
    let s := after (.featureEndInstant 0xC50)
      { gapSite .closed with
        siteTime := 9072000
        features := [(0xC50, { farm with pool := 2, endDay := some 104, endLodged := true })]
        reached := [⟨9072000, .featureEnd, 0xC50⟩] }
    (s.waiter 3).endReason = some .expired ∧ (s.waiter 3).eventTime = 9072000 ∧ (s.feature 0xC50).isSome := by
  decide

/-! ### Client requests -/

/-- R167: kind 0Ah is unknown. -/
theorem test_badRequest_kind :
    (after .badRequest (State.asked State.reset [0x0A02#16, 7#16])).replies = [[0x0A03#16, 7#16, 0x3401#16]] := by
  decide

/-- R167: a Renew of three words has a bad length. -/
theorem test_badRequest_length :
    (after .badRequest (State.asked State.reset [0x0203#16, 7#16, 0#16])).replies =
      [[0x0203#16, 7#16, 0x3402#16]] := by
  decide

/-- Section 11.2, step 1: J1 is granted entry 0, 2 seats, 16 tokens. -/
theorem test_checkout_granted :
    let s := after .checkout
      (State.asked (farmSite 10370000) [0x0109#16, 1#16, 0x900#16, 0x301#16, 5#16, 0#16, 2#16, 0#16, 1#16])
    s.replies = [[0x010A#16, 1#16, 0x0100#16, 0#16, 1#16, 2#16, 1#16, 16#16, 158#16, 17112#16]]
      ∧ (s.pool 3).used = 16 ∧ s.headroom 3 0 = 20 := by
  decide

/-- Section 11.3: with 2 seats the lingering holding is reattached at no cost, and its host stays 1400. -/
theorem test_checkout_reattached :
    let s := after .checkout
      (State.asked
        { lingerSite 7200310 with
          holdings := [(5, { live 0xA20 8 0x501 1400 2 20 7200600 with gen := 3, state := .lingering, refs := 0 })]
          pools := [(8, { Pool.initial with capacity := 30, used := 30, lingering := 20, queue := [9] })] }
        [0x0109#16, 1#16, 0xA20#16, 0x501#16, 1401#16, 0#16, 2#16, 0#16, 0#16])
    (s.replies.map (fun r => r.getD 2 0#16)) = [0x0300#16] ∧ (s.holding 5).deadline = 7203910
      ∧ (s.holding 5).host = 1400 ∧ (s.pool 8).lingering = 0 ∧ (s.pool 8).used = 30 := by
  decide

/-- R83: Renew gives a fresh lease of 1800 seconds. -/
theorem test_renew :
    (after .renew (State.asked surge [0x0204#16, 1#16, 1#16, 1#16])).replies =
      [[0x0205#16, 1#16, 0#16, 158#16, 17312#16]] := by
  decide

/-- Section 11.2, step 7: J1's refund takes pool 3 out of over and grants no one. -/
theorem test_release_free :
    let s := after .release (State.asked surge [0x0305#16, 1#16, 0#16, 1#16, 0#16])
    s.replies = [[0x0306#16, 1#16, 0x0002#16, 0#16, 0#16, 0#16]] ∧ (s.pool 3).used = 24 ∧ (s.pool 3).isOver = false
      ∧ (s.pool 3).queue = [0, 1] ∧ (s.holding 0).gen = 2 := by
  decide

/-- Section 11.3: Release takes entry 5 to LINGERING until 7 200 600. -/
theorem test_release_linger :
    let s := after .release (State.asked (lingerSite 7200000) [0x0305#16, 1#16, 5#16, 3#16, 0#16])
    (s.replies.map (fun r => r.getD 2 0#16)) = [0x0001#16] ∧ (s.holding 5).deadline = 7200600
      ∧ (s.pool 8).lingering = 20 ∧ (s.pool 8).used = 30 := by
  decide

/-- Section 11.4: with two references a Borrow is answered SHARED. -/
theorem test_borrow_shared :
    (after .borrow (State.asked (travelSite 8000000 2) [0x0405#16, 1#16, 30#16, 2#16, 10#16])).replies =
      [[0x0403#16, 1#16, 0x2600#16]] := by
  decide

/-- Section 11.4: ten days are held to seven; the borrow end is 8 604 900. -/
theorem test_borrow :
    let s := after .borrow (State.asked (travelSite 8000100 1) [0x0405#16, 1#16, 30#16, 2#16, 10#16])
    (s.replies.map (fun r => r.getD 2 0#16)) = [0x0007#16] ∧ (s.holding 30).deadline = 8604900
      ∧ (s.pool 10).borrowed = 8 ∧ (s.pool 10).used = 24 := by
  decide

/-- R99: a Return of a borrowed holding frees its entry and reports its tokens. -/
theorem test_return :
    let s := after .giveBack
      (State.asked
        { travelSite 8000100 1 with
          holdings := [(30, { live 0xB30 10 0x601 1500 1 8 8604900 with gen := 255, state := .borrowed })]
          pools := [(10, { Pool.initial with capacity := 24, borrowCap := 8, used := 8, borrowed := 8 })] }
        [0x0504#16, 1#16, 30#16, 255#16])
    s.replies = [[0x0504#16, 1#16, 0x0000#16, 8#16]] ∧ (s.holding 30).gen = 1 ∧ (s.pool 10).used = 0 := by
  decide

/-- R123: a WAITING waiter is cancelled and its ticket goes stale. -/
theorem test_cancelWait :
    let s := after .cancelWait (State.asked surge [0x0604#16, 1#16, 1#16, 1#16])
    s.replies = [[0x0608#16, 1#16, 0x0004#16, 4#16, 0#16, 0#16, 0#16, 0#16]] ∧ (s.pool 3).queue = [0]
      ∧ (s.waiter 1).gen = 2 := by
  decide

/-- R92: every field of entry 5 of section 11.3. -/
theorem test_queryHolding :
    (after .queryHolding (State.asked (lingerSite 7200000) [0x0704#16, 1#16, 5#16, 3#16])).replies =
      [[0x0713#16, 1#16, 0#16, 5#16, 3#16, 1#16, 0xA20#16, 8#16, 0x501#16, 1400#16, 0#16, 2#16, 1#16, 20#16, 109#16,
        59576#16, 0#16, 0#16, 0#16]] := by
  decide

/-- Section 11.1, step 11: capacity 48, used 0, reserve sum 12, not over, headroom 36. -/
theorem test_queryPool :
    (after .queryPool (State.asked (farmSite 10368000) [0x0804#16, 1#16, 3#16, 0#16])).replies =
      [[0x0811#16, 1#16, 0#16, 48#16, 0#16, 0#16, 0#16, 0#16, 0#16, 12#16, 0#16, 0#16, 36#16, 0#16, 0#16, 0#16,
        0#16]] := by
  decide

/-- Section 11.2: ANY reports the OVER mark of pool 3 first, with the count, the event time and the figures as they
stand. -/
theorem test_nextNotice_over :
    let s := after .nextNotice
      (State.asked
        { surge with
          pools := [(3, { Pool.initial with capacity := 36, used := 32, overMark := some 10370100 })]
          waiters := [(0, { Waiter.freeEntry 1 with state := .granted, eventTime := 10370300 })] }
        [0x0903#16, 1#16, 0#16])
    s.replies = [[0x090C#16, 1#16, 0x0004#16, 0#16, 3#16, 158#16, 15412#16, 32#16, 36#16, 0#16, 12#16, 0#16]]
      ∧ (s.pool 3).overMark = none := by
  decide

/-- Section 11.4: the LAPSE report frees entry 30, which takes generation 3. -/
theorem test_nextNotice_lapse :
    let s := after .nextNotice
      (State.asked
        { travelSite 8605300 1 with
          holdings :=
            [(30, { live 0xB30 10 0x601 1500 1 8 0 with
                      gen := 2, state := .lapsed, refs := 0, endReason := some .borrowEnd, eventTime := 8604900 })] }
        [0x0903#16, 1#16, 3#16])
    (s.replies.map (fun r => r.getD 2 0#16)) = [0x0003#16] ∧ s.holding 30 = Holding.freeEntry 3 := by
  decide

/-! ### Admin requests -/

/-- Section 11.1, step 4: the first Set Time. -/
theorem test_setTime_first :
    let s := after .setTime (State.asked { State.reset with admen := true } [0x2004#16, 1#16, 158#16, 13312#16])
    s.siteTime = 10368000 ∧ s.replies = [[0x2005#16, 1#16, 0#16, 158#16, 13312#16]] := by
  decide

/-- Section 11.5, step taken after Close Service: entry 70 lapses, and the waiter then ends with TIMEOUT. -/
theorem test_setTime_forward :
    let s := after .setTime (State.asked (gapSite .closed) [0x2004#16, 1#16, 137#16, 24568#16])
    s.siteTime = 9003000 ∧ (s.pool 2).used = 8 ∧ (s.waiter 3).eventTime = 9002000
      ∧ (s.holding 70).eventTime = 9001000 := by
  decide

/-- R135, R141: the deadline of 9 001 000 is handled before the step to 9 002 000, so that its scan's lease is counted
from that second, and the waiter's own deadline does not end it. -/
theorem test_setTime_handlesReachedFirst :
    let s := after .setTime
      (State.asked { gapSite .opened with siteTime := 9001000, reached := [⟨9001000, .leaseExpiry, 70⟩] }
        [0x2004#16, 1#16, 137#16, 23568#16])
    (s.holding 0).deadline = 9002800 ∧ (s.waiter 3).state = .granted ∧ (s.waiter 3).eventTime = 9001000
      ∧ s.siteTime = 9002000 := by
  decide

/-- Section 11.1, step 3: before the first Set Time the service cannot open. -/
theorem test_openService_unset :
    (after .openService (State.asked { State.reset with admen := true } [0x2102#16, 1#16])).replies =
      [[0x2103#16, 1#16, 0x3500#16]] := by
  decide

/-- R2, R117: opening grants the waiter whom the freed tokens now fit. -/
theorem test_openService_grants :
    let s := after .openService
      (State.asked
        { gapSite .closed with
          pools := [(2, { Pool.initial with capacity := 16, used := 8, queue := [3] })]
          holdings := [(71, live 0xC50 2 2 1 1 8 9004000)] }
        [0x2102#16, 1#16])
    (s.waiter 3).state = .granted ∧ (s.holding 0).deadline = 9001800 ∧ (s.pool 2).used = 16 := by
  decide +kernel

/-- R119, R142: at the top of the count the holding granted in pool 2 lapses before pool 8 is scanned, so that the
deadlines of the two grants never wait together and no choice between them is made. -/
theorem test_openService_top :
    let start : State :=
      { gapSite .closed with
        siteTime := 4294967295
        features := [(0xC50, { farm with pool := 2 }), (0xC51, { farm with pool := 8 })]
        pools := [(2, { Pool.initial with capacity := 8, queue := [3] }),
          (8, { Pool.initial with capacity := 8, queue := [9] })]
        holdings := []
        waiters := [(3, waiting 0xC50 3 1 1 0 4294967295), (9, waiting 0xC51 7 1 1 0 4294967295)] }
    let s := after .openService (State.asked start [0x2102#16, 1#16])
    (s.holding 0).state = .lapsed ∧ (s.holding 1).state = .lapsed ∧ (s.waiter 9).state = .granted
      ∧ (s.pool 8).used = 0 ∧ s.choices = start.choices := by
  decide +kernel

/-- R3: Close Service answers detail 1 when CLOSED already. -/
theorem test_closeService :
    (after .closeService (State.asked (gapSite .opened) [0x2202#16, 1#16])).service = .closed
      ∧ (after .closeService (State.asked (gapSite .closed) [0x2202#16, 1#16])).replies =
        [[0x2203#16, 1#16, 0x0001#16]] := by
  decide

/-- Section 11.2, step 6: the capacity cut takes pool 3 over and marks it. -/
theorem test_definePool :
    let s := after .definePool
      (State.asked
        { surge with
          siteTime := 10370100
          pools := [(3, { Pool.initial with capacity := 48, used := 40, queue := [0, 1] })] }
        [0x2305#16, 1#16, 3#16, 36#16, 0#16])
    s.replies = [[0x2303#16, 1#16, 0x0001#16]] ∧ (s.pool 3).isOver ∧ (s.pool 3).overMark = some 10370100 := by
  decide

/-- R7: a new code joins the list. -/
theorem test_defineProject :
    (after .defineProject (State.asked (farmSite 1) [0x2403#16, 1#16, 7#16])).projects = [0x301, 7] := by
  decide

/-- R8: a counted holding of the project is named first. -/
theorem test_removeProject :
    (after .removeProject (State.asked surge [0x2503#16, 1#16, 0x301#16])).replies =
      [[0x2503#16, 1#16, 0x3201#16]] := by
  decide

/-- Section 11.1: an allotment in a pool of capacity 0 takes it over (R47). -/
theorem test_defineAllotment :
    let s := after .defineAllotment
      (State.asked { farmSite 10368000 with pools := [], allotments := [] }
        [0x2607#16, 1#16, 0x301#16, 3#16, 12#16, 1#16, 24#16])
    s.allotments = [{ project := 0x301, pool := 3, reserve := 12, cap := some 24, used := 0 }]
      ∧ (s.pool 3).overMark = some 10368000 := by
  decide

/-- R12: an allotment with used tokens stays. -/
theorem test_removeAllotment :
    (after .removeAllotment (State.asked surge [0x2704#16, 1#16, 0x301#16, 3#16])).replies =
      [[0x2703#16, 1#16, 0x3206#16]] := by
  decide

/-- Section 11.1, step 8: the feature 0900h. -/
theorem test_defineFeature :
    (after .defineFeature
      (State.asked { farmSite 1 with features := [] }
        [0x280E#16, 1#16, 0x900#16, 3#16, 8#16, 0#16, 0#16, 65535#16, 0#16, 1800#16, 0#16, 0#16, 0#16, 0#16])).feature
        0x900 = some farm := by
  decide

/-- R38, R40: slot 0 of the reset term store is a term that is not the last of a chain, and so is every one after it:
the chain has no room, and offset 16 is named. -/
theorem test_defineFeature_chainForm :
    (after .defineFeature
      (State.asked (farmSite 1)
        [0x280E#16, 1#16, 0x901#16, 3#16, 8#16, 0#16, 0#16, 65535#16, 0#16, 1800#16, 0#16, 0#16, 1#16, 0#16])).replies =
      [[0x2803#16, 1#16, 0x3710#16]] := by
  decide

/-- R18: Retire Feature ends the waiters with reason RETIRED and leaves a feature with holdings RETIRING. -/
theorem test_retireFeature :
    let s := after .retireFeature (State.asked surge [0x2903#16, 1#16, 0x900#16])
    (s.waiter 1).endReason = some .retired ∧ (s.pool 3).queue = []
      ∧ (s.feature 0x900).map Feature.state = some .retiring ∧ s.replies = [[0x2903#16, 1#16, 0x0000#16]] := by
  decide

/-- R18, R20: without holdings it drains at once. -/
theorem test_retireFeature_drains :
    let s := after .retireFeature (State.asked (farmSite 7) [0x2903#16, 1#16, 0x900#16])
    s.feature 0x900 = none ∧ s.drained = [⟨0x900, 7⟩] ∧ s.replies = [[0x2903#16, 1#16, 0x0001#16]] := by
  decide

/-- R21: the record and the counts of the feature of section 11.2. -/
theorem test_queryFeature :
    (after .queryFeature (State.asked surge [0x2A03#16, 1#16, 0x900#16])).replies =
      [[0x2A14#16, 1#16, 0#16, 1#16, 3#16, 8#16, 0#16, 0#16, 65535#16, 0#16, 1800#16, 0#16, 0#16, 0#16, 0#16, 3#16,
        0#16, 0#16, 0#16, 2#16]] := by
  decide

/-- Section 10.4: 4E07h is a last, negated SET term of HOSTS, and 8000h an extension. -/
theorem test_writeTerms :
    let s := after .writeTerms
      (State.asked (farmSite 1) [0x2B07#16, 1#16, 2046#16, 0x4607#16, 100#16, 0x8000#16, 200#16])
    s.slot 2046 = .term .set true true .hosts 100#16 ∧ s.slot 2047 = .extension 200#16
      ∧ s.replies = [[0x2B03#16, 1#16, 0x0002#16]] := by
  decide

/-- R173: kind 11b in the second slot names word 5. -/
theorem test_writeTerms_badlyCoded :
    (after .writeTerms (State.asked (farmSite 1) [0x2B07#16, 1#16, 0#16, 0x4200#16, 1#16, 0xC000#16, 0#16])).replies =
      [[0x2B03#16, 1#16, 0x3305#16]] := by
  decide

/-- R23: standing 2 makes the user BARRED, and the present entry is replaced. -/
theorem test_defineUser :
    let s := after .defineUser (State.asked (farmSite 1) [0x2C06#16, 1#16, 0x355#16, 5#16, 2#16, 0#16])
    s.isBarred 0x355 ∧ s.replies = [[0x2C03#16, 1#16, 0x0001#16]] := by
  decide

/-- R25: a host's class, and its removal. -/
theorem test_defineHost :
    (after .defineHost (State.asked (farmSite 1) [0x2D05#16, 1#16, 5#16, 15#16, 1#16])).hostClass 5 = 15
      ∧ (after .defineHost
          (State.asked { farmSite 1 with hosts := [(5, 15)] } [0x2D05#16, 1#16, 5#16, 0#16, 0#16])).hosts = [] := by
  decide

/-- R146: all ten values are taken and answered. -/
theorem test_setNoticeLevels :
    let s := after .setNoticeLevels
      (State.asked (farmSite 1) [0x2E07#16, 1#16, 0x0301#16, 0x0200#16, 0x0100#16, 0x0001#16, 0x0000#16])
    s.notices.grant = ⟨3, true⟩ ∧ s.notices.waitEnd = ⟨2, false⟩
      ∧ s.replies = [[0x2E08#16, 1#16, 0#16, 0x0301#16, 0x0200#16, 0x0100#16, 0x0001#16, 0x0000#16]] := by
  decide

/-- R24: while OPEN Clear Holdings is refused; while CLOSED it frees every entry and keeps the feature. -/
theorem test_clearHoldings :
    (after .clearHoldings (State.asked (gapSite .opened) [0x2F02#16, 1#16])).replies = [[0x2F03#16, 1#16, 0x3205#16]]
      ∧ (after .clearHoldings (State.asked (gapSite .closed) [0x2F02#16, 1#16])).holding 70 = Holding.freeEntry 2
      ∧ ((after .clearHoldings (State.asked (gapSite .closed) [0x2F02#16, 1#16])).pool 2).used = 0 := by
  decide +kernel

/-! ### Rule chains -/

/-- R31: the windows that the rule works out. -/
theorem test_hours :
    hoursHold 0x0812#16 8 ∧ hoursHold 0x0812#16 17 ∧ hoursHold 0x0812#16 18 = false ∧ hoursHold 0x1606#16 22
      ∧ hoursHold 0x1606#16 5 ∧ hoursHold 0x1606#16 6 = false ∧ hoursHold 0x0018#16 23 ∧ hoursHold 0x1806#16 5
      ∧ hoursHold 0x1806#16 6 = false ∧ hoursHold 0x0707#16 7 = false := by
  decide

/-- Section 11.1: site time 10 368 000 is day 120, a Tuesday, hour 0. -/
theorem test_calendar : dayOf 10368000 = 120 ∧ weekdayOf 10368000 = 1 ∧ hourOf 10368000 = 0 := by decide

/-! ### Witnesses: states and operands that meet the hypotheses of each obligation, clause by clause -/

/-- What holds of every listed holding and of a FREE one holds of every entry. -/
theorem every_holding {s : State} {P : Nat → Holding → Prop} (listed : ∀ e ∈ s.holdings, P e.1 e.2)
    (unlisted : ∀ i, P i Holding.initial) (i : Nat) : P i (s.holding i) := by
  unfold State.holding tableGet
  cases h : tableFind s.holdings i with
  | none => exact unlisted i
  | some v => exact listed _ (mem_of_tableFind h)

/-- What holds of every listed waiter and of a FREE one holds of every entry. -/
theorem every_waiter {s : State} {P : Nat → Waiter → Prop} (listed : ∀ e ∈ s.waiters, P e.1 e.2)
    (unlisted : ∀ j, P j Waiter.initial) (j : Nat) : P j (s.waiter j) := by
  unfold State.waiter tableGet
  cases h : tableFind s.waiters j with
  | none => exact unlisted j
  | some v => exact listed _ (mem_of_tableFind h)

/-- What holds of every listed pool and of a pool as reset leaves it holds of every pool. -/
theorem every_pool {s : State} {P : Nat → Pool → Prop} (listed : ∀ e ∈ s.pools, P e.1 e.2)
    (unlisted : ∀ p, P p Pool.initial) (p : Nat) : P p (s.pool p) := by
  unfold State.pool tableGet
  cases h : tableFind s.pools p with
  | none => exact unlisted p
  | some v => exact listed _ (mem_of_tableFind h)

/-- An ACTIVE feature is not drained. -/
theorem noDrain_of_active {s : State} {i : Nat} {f : Feature} (h : s.feature (s.holding i).feature = some f)
    (ha : f.state = .active) : NoDrain s i := by
  intro g hg hr
  rw [h] at hg
  cases hg
  rw [ha] at hr
  cases hr

/-- A user without an entry is not barred. -/
theorem notBarred_of_none {s : State} {u : Nat} (h : s.user u = none) : ¬Barred s u := by
  rintro ⟨x, hx, _⟩
  rw [h] at hx
  cases hx

/-- A waiter of a feature without an end day and of a project without an allotment passes the first tests of a scan,
where its path is no merge into a holding of 65535 references. -/
theorem passes_of_path {s : State} {p j : Nat} {f : Feature} (waits : (s.waiter j).state = .waiting)
    (known : s.feature (s.waiter j).feature = some f) (pooled : f.pool = p) (unending : f.endDay = none)
    (references : ∀ i, s.choosePath f.sharing (s.waiter j).asking = .merge i → (s.holding i).refs < 65535)
    (free : s.allotment (s.waiter j).project p = none) : PassesTests s p j f where
  waits := waits
  known := known
  pooled := pooled
  licensed d h := by rw [unending] at h; cases h
  references := references
  cap a _ _ h := by rw [free] at h; cases h

/-- The same, where its path is a new holding. -/
theorem passes_of_fresh {s : State} {p j : Nat} {f : Feature} (waits : (s.waiter j).state = .waiting)
    (known : s.feature (s.waiter j).feature = some f) (pooled : f.pool = p) (unending : f.endDay = none)
    (fresh : s.choosePath f.sharing (s.waiter j).asking = .fresh)
    (free : s.allotment (s.waiter j).project p = none) : PassesTests s p j f :=
  passes_of_path waits known pooled unending (fun _ h => absurd (fresh.symm.trans h) nofun) free

/-- A scan goes on behind the waiters that it passes over. -/
theorem scans_behind {p evt : Nat} {more : List Nat} {s t : State} (rest : Scans p evt more s t) :
    ∀ ahead : List Nat, (∀ m ∈ ahead, PassedOver s p m) → Scans p evt (ahead ++ more) s t
  | [], _ => rest
  | m :: ms, h =>
    .passesOver (h m (List.mem_cons_self ..)) (scans_behind rest ms fun k hk => h k (List.mem_cons_of_mem _ hk))

/-- A scan that is asked for of a pool with an empty queue does nothing. -/
theorem scanned_empty {s : State} {p evt : Nat} (h : (s.pool p).queue = []) : Scanned s p evt s :=
  ⟨fun _ _ => .inl (by rw [h]; exact .finished s), fun _ => rfl⟩

/-- A scan that is asked for while the service is CLOSED does nothing. -/
theorem scanned_closed {s : State} {p evt : Nat} (h : s.service = .closed) : Scanned s p evt s :=
  ⟨fun o => absurd (h.symm.trans o) nofun, fun _ => rfl⟩

/-- A scan of an OPEN service's pool serves the waiter that it can serve. -/
theorem scanned_serves {s : State} {p j k : Nat} {f : Feature} (evt : Nat) (opened : s.service = .opened)
    (h : Serves s p j k f) : Scanned s p evt (granted s p j k f evt) := by
  obtain ⟨ahead, queue, passed⟩ := h.queued
  refine ⟨fun _ _ => ?_, fun c => ?_⟩
  · rw [queue]
    exact .inl <| scans_behind (.makes h.tests h.afforded h.fresh h.entry h.lease (.finished _)) ahead passed
  · rcases c with c | c
    · exact absurd (opened.symm.trans c) nofun
    · exact absurd (h.notOver.symm.trans c) nofun

/-- A scan of an OPEN service's pool serves the one waiter whose lease is reached at once. -/
theorem scanned_at_once {s : State} {p j k : Nat} {f : Feature} (evt : Nat) (opened : s.service = .opened)
    (notOver : (s.pool p).isOver = false) (h : ServesAtOnce s p j k f) :
    Scanned s p evt (grantedAndLapsed s p j k f evt) := by
  refine ⟨fun _ _ => .inr ⟨j, k, f, h, rfl⟩, fun c => ?_⟩
  rcases c with c | c
  · exact absurd (opened.symm.trans c) nofun
  · exact absurd (notOver.symm.trans c) nofun

/-- A pass over a part with two queues that are not empty scans the pool of the lower number first. -/
theorem pass_of_two {s b c : State} {p q evt : Nat} (first : Scanned { s with starved := false } p evt b)
    (second : Scanned b q evt c) (below : p < q) (top : q < 64)
    (empty : ∀ k, k ≠ p → k ≠ q → (s.pool k).queue = [] ∧ (b.pool k).queue = [] ∧ (c.pool k).queue = []) :
    PassMade s evt c := by
  refine ⟨fun n => if n ≤ p then { s with starved := false } else if n ≤ q then b else c, rfl, ?_, fun k hk => ?_⟩
  · show (if 64 ≤ p then _ else if 64 ≤ q then _ else _) = _
    rw [if_neg (by omega), if_neg (by omega)]
  · show Scanned (if k ≤ p then _ else if k ≤ q then _ else _) k evt
      (if k + 1 ≤ p then _ else if k + 1 ≤ q then _ else _)
    rcases Nat.lt_trichotomy k p with h | rfl | h
    · rw [if_pos (by omega), if_pos (by omega)]
      exact scanned_empty (empty k (by omega) (by omega)).1
    · rw [if_pos (by omega), if_neg (by omega), if_pos (by omega)]
      exact first
    · rcases Nat.lt_trichotomy k q with g | rfl | g
      · rw [if_neg (by omega), if_pos (by omega), if_neg (by omega), if_pos (by omega)]
        exact scanned_empty (empty k (by omega) (by omega)).2.1
      · rw [if_neg (by omega), if_pos (by omega), if_neg (by omega), if_neg (by omega)]
        exact second
      · rw [if_neg (by omega), if_neg (by omega), if_neg (by omega), if_neg (by omega)]
        exact scanned_empty (empty k (by omega) (by omega)).2.2

/-- A pass over a part with one queue that is not empty is the scan of its pool. -/
theorem pass_of_one {s t : State} {p evt : Nat} (scan : Scanned { s with starved := false } p evt t) (top : p < 63)
    (empty : ∀ k, k ≠ p → (s.pool k).queue = [] ∧ (t.pool k).queue = []) : PassMade s evt t :=
  pass_of_two scan (scanned_empty (empty 63 (by omega)).2) top (by decide) fun k h _ =>
    ⟨(empty k h).1, (empty k h).2, (empty k h).2⟩

/-- The feature of section 11.5. -/
def gapFeature : Feature := { farm with pool := 2, sharing := .station }

/-- The state of section 11.5 at the second of the first lease expiry, which still waits, with a step to 9 002 000. -/
def overtaken : State :=
  State.asked { gapSite .opened with siteTime := 9001000, reached := [⟨9001000, .leaseExpiry, 70⟩] }
    [0x2004#16, 1#16, 137#16, 23568#16]

/-- The entry 70 after its lease expiry. -/
def lapsed70 : Holding :=
  { live 0xC50 2 1 1 1 8 0 with state := .lapsed, refs := 0, endReason := some .lease, eventTime := 9001000 }

/-- A state with sixteen frames in the FIFO. -/
def full : State := { State.reset with fifo := List.replicate 16 [0x2102#16, 0#16] }

theorem witness_StepTakesTheCommandInFront :
    { State.reset with pending := [.setTime, .checkout] }.pending = .setTime :: [.checkout]
      ∧ State.reset.pending = [] :=
  ⟨rfl, rfl⟩

theorem witness_LinesActOnTheWholePart :
    (after .deviceReset surge).resetLow = true ∧ State.reset.resetLow = false ∧ Instr.checkout ≠ .deviceReset
      ∧ Instr.checkout ≠ .resetRelease ∧ ∀ level, Instr.checkout ≠ .admenChange level := by
  decide

theorem witness_WriteFrameJoinsTheFifoOrSetsAFlag :
    State.reset.resetLow = false ∧ full.resetLow = false ∧ 16 ≤ full.fifo.length ∧ State.reset.fifo.length < 16
      ∧ { full with fifo := full.fifo.tail }.fifo.length = 15
      ∧ [1#8].length < 2
      ∧ (1#8).toNat < 2 ∧ 40 < (41#8).toNat ∧ [1#8, 2#8, 0#8].length < 2 * (2#8).toNat
      ∧ (bytesOf [0x2102#16, 0#16]).length = 4 ∧ lengthOf 0x2102#16 = 2
      ∧ lengthOf ((0x2B28#16 :: List.replicate 39 0#16).getD 0 0#16) =
        (0x2B28#16 :: List.replicate 39 0#16).length := by
  decide

theorem witness_ReadFrameShiftsOutTheOldestReply :
    { State.reset with replies := [[0x2103#16, 0#16, 0#16]] }.replies = [0x2103#16, 0#16, 0#16] :: []
      ∧ State.reset.replies = [] ∧ State.reset.resetLow = false := by
  decide

theorem witness_StatusAndUnknownTransactions :
    State.reset.resetLow = false ∧ firstBits State.reset.statusByte (0 : Fin 8) = []
      ∧ firstBits State.reset.statusByte (7 : Fin 8) = [true, false, false, false, false, false, false]
      ∧ 0#8 ≠ 1#8 ∧ 0#8 ≠ 2#8 ∧ 0#8 ≠ 3#8 ∧ 4#8 ≠ 1#8 ∧ 4#8 ≠ 2#8 ∧ 4#8 ≠ 3#8 := by
  decide

theorem witness_SiteTimeCountsFromRefclk :
    State.reset.resetLow = false ∧ State.reset.timeState = .unset
      ∧ ((farmSite 5).timeState = .set ∧ { farmSite 5 with divider := 32766 }.divider < 32767)
      ∧ 32767 ≤ { farmSite 5 with divider := 32767 }.divider
      ∧ (farmSite 4294967294).siteTime < 4294967295 ∧ (farmSite 5).reached = [] ∧ (farmSite 5).atOnce = []
      ∧ (farmSite 4294967295).siteTime = 4294967295
      ∧ { farmSite 5 with divider := 32767 }.divider + 0 ≤ 32767 ∧ (farmSite 5).divider + 32767 ≤ 32767 := by
  decide

/-- Once entry 70 has lapsed, the scan of its pool serves the waiter. -/
theorem overtaken_serves : Serves (leftCounted overtaken 70 9001000 lapsed70) 2 3 0 gapFeature :=
  ⟨by decide, ⟨[], by decide, nofun⟩, passes_of_fresh (by decide) (by decide) rfl rfl (by decide) (by decide),
    by decide, by decide, by decide, by decide⟩

/-- A lease expiry that still waits from the last advance. -/
theorem witness_SiteTimeCountsFromRefclk_waiting :
    overtaken.resetLow = false ∧ overtaken.timeState = .set ∧ overtaken.siteTime < 4294967295 ∧ overtaken.atOnce = []
      ∧ TablesOk overtaken ∧ TimelyOk overtaken ∧ overtaken.reached = [⟨9001000, .leaseExpiry, 70⟩]
      ∧ (∃ u, exec (deadlineCommand ⟨9001000, .leaseExpiry, 70⟩) overtaken = .next u)
      ∧ (overtaken.holding 70).state = .live ∧ NoDrain overtaken 70
      ∧ Scanned (leftCounted overtaken 70 9001000 lapsed70) 2 9001000
          (granted (leftCounted overtaken 70 9001000 lapsed70) 2 3 0 gapFeature 9001000) :=
  ⟨rfl, rfl, by decide, rfl, by constructor <;> decide, ⟨rfl, by decide⟩, rfl, ⟨_, rfl⟩, by decide,
    noDrain_of_active (f := gapFeature) (by decide) rfl, scanned_serves _ rfl overtaken_serves⟩

/-- The state of section 11.5 with the lease expiry of entry 70 reached, the service CLOSED. -/
def lapsing : State := { gapSite .closed with siteTime := 9001000, reached := [⟨9001000, .leaseExpiry, 70⟩] }

/-- A state with a holding BORROWED to its end, which is reached. -/
def returning : State :=
  { travelSite 8604900 1 with
    service := .closed
    holdings := [(30, { live 0xB30 10 0x601 1500 1 8 8604900 with state := .borrowed })]
    pools := [(10, { Pool.initial with capacity := 24, borrowCap := 8, used := 8, borrowed := 8 })]
    reached := [⟨8604900, .borrowEnd, 30⟩] }

theorem witness_LeaseExpiryAndBorrowEndLapseTheHolding :
    (TablesOk lapsing ∧ lapsing.atOnce = [] ∧ NoOneServed lapsing (lapsing.holding 70).pool ∧ NoDrain lapsing 70
        ∧ (lapsing.holding 70).state = .live
        ∧ lapsing.reachedOf .leaseExpiry 70 = some ⟨9001000, .leaseExpiry, 70⟩)
      ∧ (TablesOk returning ∧ returning.atOnce = [] ∧ NoOneServed returning (returning.holding 30).pool
        ∧ NoDrain returning 30 ∧ (returning.holding 30).state = .borrowed
        ∧ returning.reachedOf .borrowEnd 30 = some ⟨8604900, .borrowEnd, 30⟩) :=
  ⟨⟨by constructor <;> decide, rfl, .inl rfl, noDrain_of_active (f := { farm with pool := 2, sharing := .station })
      (by decide) rfl, by decide, by decide⟩,
    by constructor <;> decide, rfl, .inl rfl,
    noDrain_of_active (f := { farm with pool := 10, sharing := .station, lease := 3600, borrowMax := 7 }) (by decide)
      rfl, by decide, by decide⟩

/-- The borrow end of entry 30 reached in an OPEN service, and a waiter that its tokens fit. -/
def returningServed : State :=
  { returning with
    service := .opened
    pools := [(10, { Pool.initial with capacity := 8, borrowCap := 8, used := 8, borrowed := 8, queue := [1] })]
    waiters := [(1, waiting 0xB30 0x700 1 1 0 9000000)] }

/-- The record of the feature 0B30h. -/
def travelFeature : Feature := { farm with pool := 10, sharing := .station, lease := 3600, borrowMax := 7 }

/-- The entry 30 after its borrow end. -/
def lapsed30 : Holding :=
  { live 0xB30 10 0x601 1500 1 8 0 with
    state := .lapsed, refs := 0, endReason := some .borrowEnd, eventTime := 8604900 }

/-- A lease expiry and a borrow end whose scans grant a waiter. -/
theorem witness_LeaseExpiryAndBorrowEndLapseTheHolding_scans :
    (TablesOk overtaken ∧ overtaken.atOnce = [] ∧ NoDrain overtaken 70 ∧ (overtaken.holding 70).state = .live
        ∧ overtaken.reachedOf .leaseExpiry 70 = some ⟨9001000, .leaseExpiry, 70⟩
        ∧ Scanned (leftCounted overtaken 70 9001000 lapsed70) 2 9001000
            (granted (leftCounted overtaken 70 9001000 lapsed70) 2 3 0 gapFeature 9001000))
      ∧ (TablesOk returningServed ∧ returningServed.atOnce = [] ∧ NoDrain returningServed 30
        ∧ (returningServed.holding 30).state = .borrowed
        ∧ returningServed.reachedOf .borrowEnd 30 = some ⟨8604900, .borrowEnd, 30⟩
        ∧ Scanned (leftCounted returningServed 30 8604900 lapsed30) 10 8604900
            (granted (leftCounted returningServed 30 8604900 lapsed30) 10 1 0 travelFeature 8604900)) :=
  ⟨⟨by constructor <;> decide, rfl, noDrain_of_active (f := gapFeature) (by decide) rfl, by decide, by decide,
      scanned_serves _ rfl overtaken_serves⟩,
    by constructor <;> decide, rfl, noDrain_of_active (f := travelFeature) (by decide) rfl, by decide, by decide,
    scanned_serves _ rfl ⟨by decide, ⟨[], by decide, nofun⟩,
      passes_of_fresh (by decide) (by decide) rfl rfl (by decide) (by decide), by decide, by decide, by decide,
      by decide⟩⟩

/-- A state with the linger end of entry 5 reached and no waiter. -/
def lingerDue : State :=
  { lingerSite 7200600 with
    holdings := [(5, { live 0xA20 8 0x501 1400 2 20 7200600 with state := .lingering, refs := 0 })]
    pools := [(8, { Pool.initial with capacity := 30, used := 20, lingering := 20 })]
    waiters := []
    reached := [⟨7200600, .lingerEnd, 5⟩] }

theorem witness_LingerEndFreesTheEntry :
    TablesOk lingerDue ∧ lingerDue.atOnce = [] ∧ NoOneServed lingerDue (lingerDue.holding 5).pool
      ∧ NoDrain lingerDue 5 ∧ (lingerDue.holding 5).state = .lingering
      ∧ lingerDue.reachedOf .lingerEnd 5 = some ⟨7200600, .lingerEnd, 5⟩ :=
  ⟨by constructor <;> decide, rfl, .inr ⟨by decide, rfl⟩,
    noDrain_of_active (f := { farm with pool := 8, weight := 10, sharing := .user, lease := 3600, linger := 600 })
      (by decide) rfl, by decide, by decide⟩

/-- A linger end reached, a waiter in the queue, and the entry-starved mark set. -/
def resuming : State :=
  { lingerDue with
    starved := true
    pools := [(8, { Pool.initial with capacity := 30, used := 20, lingering := 20, queue := [9] })]
    waiters := [(9, waiting 0xA20 0x502 1 1 0 7203000)] }

/-- The feature of section 11.3. -/
def lingerFeature : Feature :=
  { farm with pool := 8, weight := 10, sharing := .user, lease := 3600, linger := 600 }

/-- The state of the resumption pass: the entry freed, the mark cleared. -/
def resumed : State :=
  { leftCounted resuming 5 7200600 (Holding.freeEntry (nextGen (resuming.holding 5).gen)) with starved := false }

theorem resumed_serves : Serves resumed 8 9 0 lingerFeature :=
  ⟨by decide, ⟨[], by decide, nofun⟩, passes_of_fresh (by decide) (by decide) rfl rfl (by decide) (by decide),
    by decide, by decide, by decide, by decide⟩

/-- The queues of the other pools are empty, and stay so. -/
theorem resumed_others (k : Nat) (h : k ≠ 8) :
    (resumed.pool k).queue = [] ∧ ((granted resumed 8 9 0 lingerFeature 7200600).pool k).queue = [] :=
  ⟨every_pool (s := resumed) (P := fun p q => p ≠ 8 → q.queue = []) (by decide) (fun _ _ => rfl) k h,
    every_pool (s := granted resumed 8 9 0 lingerFeature 7200600) (P := fun p q => p ≠ 8 → q.queue = []) (by decide)
      (fun _ _ => rfl) k h⟩

/-- A linger end that starts the resumption pass, and one that starts the scan of its pool; both grant the waiter. -/
theorem witness_LingerEndFreesTheEntry_scans :
    let calm := { resuming with starved := false }
    let entry := Holding.freeEntry (nextGen (resuming.holding 5).gen)
    let t := granted resumed 8 9 0 lingerFeature 7200600
    (TablesOk resuming ∧ resuming.atOnce = [] ∧ NoDrain resuming 5 ∧ (resuming.holding 5).state = .lingering
        ∧ resuming.reachedOf .lingerEnd 5 = some ⟨7200600, .lingerEnd, 5⟩ ∧ resuming.starved = true
        ∧ FreedScanned (leftCounted resuming 5 7200600 entry) 8 7200600 t)
      ∧ (TablesOk calm ∧ calm.atOnce = [] ∧ NoDrain calm 5 ∧ (calm.holding 5).state = .lingering
        ∧ calm.reachedOf .lingerEnd 5 = some ⟨7200600, .lingerEnd, 5⟩ ∧ calm.starved = false
        ∧ FreedScanned (leftCounted calm 5 7200600 entry) 8 7200600 t) :=
  ⟨⟨by constructor <;> decide, rfl, noDrain_of_active (f := lingerFeature) (by decide) rfl, by decide, by decide, rfl,
      fun _ _ => pass_of_one (s := leftCounted resuming 5 7200600 _) (scanned_serves 7200600 rfl resumed_serves)
        (by decide) resumed_others,
      fun h => absurd h (by decide)⟩,
    by constructor <;> decide, rfl, noDrain_of_active (f := lingerFeature) (by decide) rfl, by decide, by decide, rfl,
    nofun, fun _ => scanned_serves 7200600 rfl resumed_serves⟩

/-- A RETIRING feature whose last holding's lease expiry is reached. -/
def draining : State :=
  { lapsing with
    features := [(0xC50, { farm with state := .retiring, pool := 2, sharing := .station })]
    holdings := [(70, live 0xC50 2 1 1 1 8 9001000)] }

/-- The last holding of the RETIRING feature, in a state and with what is waiting. -/
def lastOf (st : HoldingState) (due : List Deadline) (frames : List Frame) : State :=
  { draining with
    holdings := [(70, { live 0xC50 2 1 1 1 8 9001000 with state := st })]
    reached := due
    fifo := frames }

theorem lastOf_last (st : HoldingState) (due : List Deadline) (frames : List Frame) :
    LastOfRetiring (lastOf st due frames) 70 := by
  refine ⟨⟨{ farm with state := .retiring, pool := 2, sharing := .station }, rfl, rfl⟩,
    every_holding (P := fun k h => k ≠ 70 → h.state.counted = true → h.feature ≠ _) (fun e he hk => ?_)
      (fun _ _ => nofun)⟩
  have hl : (lastOf st due frames).holdings = [(70, { live 0xC50 2 1 1 1 8 9001000 with state := st })] := rfl
  rw [hl, List.mem_singleton] at he
  subst he
  exact absurd rfl hk

theorem witness_LastHoldingDrainsTheRetiringFeature :
    let lease := lastOf .live [⟨9001000, .leaseExpiry, 70⟩] []
    let borrow := lastOf .borrowed [⟨9001000, .borrowEnd, 70⟩] []
    let linger := lastOf .lingering [⟨9001000, .lingerEnd, 70⟩] []
    let now := lastOf .live [] [[0x0305#16, 1#16, 70#16, 1#16, 1#16]]
    let later := lastOf .live [] [[0x0305#16, 1#16, 70#16, 1#16, 0#16]]
    let back := lastOf .borrowed [] [[0x0504#16, 1#16, 70#16, 1#16]]
    (∀ s ∈ [lease, borrow, linger, now, later, back], s.atOnce = [] ∧ s.drained = [])
      ∧ (∀ st due frames, NoOneServed (lastOf st due frames) 2)
      ∧ (TablesOk lease ∧ TablesOk borrow ∧ TablesOk linger ∧ TablesOk now ∧ TablesOk later ∧ TablesOk back)
      ∧ (LastOfRetiring lease 70 ∧ LastOfRetiring borrow 70 ∧ LastOfRetiring linger 70 ∧ LastOfRetiring now 70
        ∧ LastOfRetiring later 70 ∧ LastOfRetiring back 70)
      ∧ ((lease.holding 70).state = .live ∧ lease.reachedOf .leaseExpiry 70 = some ⟨9001000, .leaseExpiry, 70⟩)
      ∧ ((borrow.holding 70).state = .borrowed ∧ borrow.reachedOf .borrowEnd 70 = some ⟨9001000, .borrowEnd, 70⟩)
      ∧ ((linger.holding 70).state = .lingering ∧ linger.reachedOf .lingerEnd 70 = some ⟨9001000, .lingerEnd, 70⟩)
      ∧ (Taking now [0x0305#16, 1#16, 70#16, 1#16, 1#16] [] ∧ (now.holding 70).gen = (1#16).toNat
        ∧ (now.holding 70).refs = 1 ∧ (now.holding 70).state = .live)
      ∧ (Taking later [0x0305#16, 1#16, 70#16, 1#16, 0#16] [] ∧ farm.linger = 0)
      ∧ (Taking back [0x0504#16, 1#16, 70#16, 1#16] [] ∧ (back.holding 70).state = .borrowed) :=
  ⟨by decide, fun _ _ _ => .inl rfl,
    ⟨by constructor <;> decide, by constructor <;> decide, by constructor <;> decide, by constructor <;> decide,
      by constructor <;> decide, by constructor <;> decide⟩,
    ⟨lastOf_last .., lastOf_last .., lastOf_last .., lastOf_last .., lastOf_last .., lastOf_last ..⟩,
    by decide, by decide, by decide, ⟨⟨rfl, by decide, rfl⟩, by decide, by decide, by decide⟩,
    ⟨⟨rfl, by decide, rfl⟩, rfl⟩, ⟨rfl, by decide, rfl⟩, by decide⟩

/-- The state of section 11.5 with the wait deadline reached. -/
def waitDue : State := { gapSite .closed with siteTime := 9002000, reached := [⟨9002000, .waitDeadline, 3⟩] }

theorem witness_WaitDeadlineEndsTheWaiter :
    waitDue.atOnce = []
      ∧ waitDue.feature (waitDue.waiter 3).feature = some { farm with pool := 2, sharing := .station }
      ∧ (waitDue.waiter 3).state = .waiting ∧ waitDue.reachedOf .waitDeadline 3 = some ⟨9002000, .waitDeadline, 3⟩ := by
  decide

/-- A feature whose end instant is reached. -/
def endDue : State :=
  { gapSite .closed with
    siteTime := 9072000
    features := [(0xC50, { farm with pool := 2, endDay := some 104, endLodged := true })]
    reached := [⟨9072000, .featureEnd, 0xC50⟩] }

theorem witness_FeatureEndInstantEndsTheWaiters :
    TablesOk endDue ∧ endDue.atOnce = []
      ∧ endDue.feature 0xC50 = some { farm with pool := 2, endDay := some 104, endLodged := true }
      ∧ endDue.reachedOf .featureEnd 0xC50 = some ⟨9072000, .featureEnd, 0xC50⟩ :=
  ⟨by constructor <;> decide, rfl, by decide, by decide⟩

/-- A state with one reached deadline of a record that is no longer there. -/
def stale (k : DeadlineKind) (n : Nat) : State := { farmSite 9 with reached := [⟨9, k, n⟩] }

theorem witness_DeadlineWithoutItsRecordActsOnNothing :
    (farmSite 9).atOnce = []
      ∧ (farmSite 9).reachedOf .leaseExpiry 0 = none ∧ (farmSite 9).reachedOf .lingerEnd 8191 = none
      ∧ (farmSite 9).reachedOf .borrowEnd 0 = none ∧ (farmSite 9).reachedOf .waitDeadline 255 = none
      ∧ (farmSite 9).reachedOf .featureEnd 65535 = none
      ∧ (stale .leaseExpiry 0).reachedOf .leaseExpiry 0 = some ⟨9, .leaseExpiry, 0⟩
      ∧ ((stale .leaseExpiry 0).holding 0).state ≠ .live
      ∧ (stale .lingerEnd 8191).reachedOf .lingerEnd 8191 = some ⟨9, .lingerEnd, 8191⟩
      ∧ ((stale .lingerEnd 8191).holding 8191).state ≠ .lingering
      ∧ (stale .borrowEnd 0).reachedOf .borrowEnd 0 = some ⟨9, .borrowEnd, 0⟩
      ∧ ((stale .borrowEnd 0).holding 0).state ≠ .borrowed
      ∧ (stale .waitDeadline 255).reachedOf .waitDeadline 255 = some ⟨9, .waitDeadline, 255⟩
      ∧ ((stale .waitDeadline 255).waiter 255).state ≠ .waiting
      ∧ (stale .featureEnd 65535).reachedOf .featureEnd 65535 = some ⟨9, .featureEnd, 65535⟩
      ∧ (stale .featureEnd 65535).feature 65535 = none := by
  decide

/-- A state whose reply queue is full. -/
def repliesFull : State := { State.asked State.reset [0x2102#16, 0#16] with replies := List.replicate 16 [0#16] }

theorem witness_EachFrameTakenYieldsOneReply :
    (Taking (State.asked surge [0x0204#16, 1#16, 1#16, 1#16]) [0x0204#16, 1#16, 1#16, 1#16] []
        ∧ takerOf (kindCode [0x0204#16, 1#16, 1#16, 1#16]) = some .renew)
      ∧ (Taking (State.asked surge [0x0A02#16, 1#16]) [0x0A02#16, 1#16] [] ∧ isBadRequest [0x0A02#16, 1#16] = true)
      ∧ takerOf 0x21 = some .openService ∧ 16 ≤ repliesFull.replies.length ∧ State.reset.fifo = []
      ∧ (State.asked surge [0x2202#16, 1#16]).fifo = [0x2202#16, 1#16] :: [] ∧ kindCode [0x2202#16, 1#16] ≠ 0x21
      ∧ isBadRequest [0x2202#16, 1#16] = false :=
  ⟨⟨⟨rfl, by decide, rfl⟩, by decide⟩, ⟨⟨rfl, by decide, rfl⟩, by decide⟩, by decide, by decide, rfl, rfl, by decide,
    by decide⟩

theorem witness_DecoderRefusesInOrder :
    (∀ k ∈ [0x00, 0x0A, 0x1F, 0x30, 0xFF], ¬((1 ≤ k ∧ k ≤ 9) ∨ (0x20 ≤ k ∧ k ≤ 0x2F)))
      ∧ (∀ k ∈ [0x01, 0x09, 0x20, 0x2F], (1 ≤ k ∧ k ≤ 9) ∨ (0x20 ≤ k ∧ k ≤ 0x2F))
      ∧ Taking (State.asked State.reset [0x0002#16, 1#16]) [0x0002#16, 1#16] []
      ∧ (Taking (State.asked State.reset [0x0902#16, 1#16]) [0x0902#16, 1#16] [] ∧ lengthTaken 0x09 2 = false
        ∧ takerOf 0x09 = some .nextNotice)
      ∧ (Taking (State.asked State.reset [0x2F02#16, 1#16]) [0x2F02#16, 1#16] [] ∧ lengthTaken 0x2F 2 = true
        ∧ (State.asked State.reset [0x2F02#16, 1#16]).admen = false ∧ takerOf 0x2F = some .clearHoldings) :=
  ⟨by decide, by decide, ⟨rfl, by decide, rfl⟩, ⟨⟨rfl, by decide, rfl⟩, by decide, by decide⟩,
    ⟨rfl, by decide, rfl⟩, by decide, by decide, by decide⟩

/-! #### Checkout -/

/-- A Checkout of the feature 0900h by user 0355h, who has class 3. -/
def jobFrame (seats wait cls : Word) : Frame := checkoutFrame 1#16 0x900#16 0x355#16 5#16 0#16 seats wait cls

/-- What the Checkout asks in the state of section 11.1. -/
def job (seats cls : Nat) : Asking :=
  { feature := 0x900, user := 0x355, host := 5, project := 0, seats := seats, cls := cls }

/-- The state of section 11.1 with the feature's record replaced. -/
def farmWith (f : Feature) : State := { farmSite 10370000 with features := [(0x900, f)] }

theorem witness_CheckoutIsRefusedInOrder :
    Taking (State.asked (farmWith farm) (jobFrame 1#16 0#16 0#16)) (jobFrame 1#16 0#16 0#16) []
      ∧ { farmWith farm with service := .closed }.service = .closed ∧ (farmWith farm).service = .opened
      ∧ asked (farmWith farm) 0x900#16 0x355#16 5#16 0#16 1#16 3#16 = job 1 3
      ∧ (asked (farmWith farm) 0#16 0x355#16 5#16 0#16 1#16 3#16).feature = 0
      ∧ (asked (farmWith farm) 0x900#16 0#16 5#16 0#16 1#16 3#16).user = 0
      ∧ (asked (farmWith farm) 0x900#16 0x355#16 0#16 0#16 1#16 3#16).host = 0
      ∧ (job 0 0).seats = 0 ∧ 16 < (job 17 0).seats ∧ FieldsPass (job 1 0) ∧ FieldsPass (job 16 0)
      ∧ { farmWith farm with features := [] }.feature 0x900 = none ∧ (farmWith farm).feature 0x900 = some farm
      ∧ { farm with state := .retiring }.state = .retiring
      ∧ (farmWith farm).siteTime < { farm with startDay := 121 }.startDay * 86400
      ∧ ((119 + 1) * 86400 ≤ (farmWith farm).siteTime ∧ { farm with endDay := some 119 }.endDay = some 119)
      ∧ Licensed { farm with startDay := 120, endDay := some 120 } (farmWith farm).siteTime
      ∧ Barred { farmWith farm with users := [(0x355, ⟨0#16, .barred, 3⟩)] } 0x355 ∧ ¬Barred (farmWith farm) 0x302
      ∧ 7 ∉ (farmWith farm).projects
      ∧ { farmWith farm with terms := [(0, .term .set false true .group 0#16)] }.verdict { farm with chain := some 0 }
          ((farmWith farm).ruleInputs (job 1 0)) = (false, 0) :=
  ⟨⟨rfl, by decide, rfl⟩, rfl, rfl, by decide, by decide, by decide, by decide, by decide, by decide,
    ⟨by decide, by decide, by decide, by decide, by decide⟩, ⟨by decide, by decide, by decide, by decide, by decide⟩,
    by decide, by decide, rfl, by decide, ⟨by decide, rfl⟩,
    ⟨rfl, by decide, fun d h => by cases h; decide⟩, ⟨_, rfl, rfl⟩, notBarred_of_none (by decide), by decide,
    by decide⟩

/-- Section 11.2, step 1, passes every check. -/
theorem admitted_farm (f : Feature) (frame : Frame) (a : Asking) (hf : FieldsPass a)
    (hk : (State.asked (farmWith f) frame).feature a.feature = some f)
    (hl : Licensed f (State.asked (farmWith f) frame).siteTime)
    (hu : ¬Barred (State.asked (farmWith f) frame) a.user) (hp : a.project = 0) (hc : f.chain = none) :
    Admitted (State.asked (farmWith f) frame) a f :=
  ⟨rfl, hf, hk, hl, hu, .inl hp, by simp [State.verdict, hc]⟩

theorem notBarred_job (f : Feature) (frame : Frame) : ¬Barred (State.asked (farmWith f) frame) 0x355 := by
  rintro ⟨u, h, hb⟩
  have e : (State.asked (farmWith f) frame).user 0x355 = some ⟨0#16, .enabled, 3⟩ := rfl
  rw [e] at h
  cases h
  cases hb

theorem fields_job (n c : Nat) (hn : 1 ≤ n) (hm : n ≤ 16) : FieldsPass (job n c) := by
  refine ⟨?_, ?_, ?_, hn, hm⟩ <;> simp [job]

theorem admitted_job (seats wait cls : Word) (n c : Nat) (hn : 1 ≤ n) (hm : n ≤ 16) :
    Admitted (State.asked (farmWith farm) (jobFrame seats wait cls)) (job n c) farm :=
  admitted_farm farm _ (job n c) (fields_job n c hn hm) rfl ⟨rfl, Nat.zero_le _, nofun⟩ (notBarred_job _ _) rfl rfl

theorem witness_CheckoutMakesANewHolding :
    let s := State.asked (farmWith farm) (jobFrame 2#16 0#16 1#16)
    Taking s (jobFrame 2#16 0#16 1#16) [] ∧ TablesOk s ∧ s.atOnce = []
      ∧ asked s 0x900#16 0x355#16 5#16 0#16 2#16 1#16 = job 2 1 ∧ Admitted s (job 2 1) farm
      ∧ s.choosePath farm.sharing (job 2 1) = .fresh ∧ s.chargeCause farm.pool 0 1 (farm.weight * 2) = none
      ∧ s.allocate = some 0 ∧ s.siteTime < farm.clamp (s.siteTime + farm.lease) :=
  ⟨⟨rfl, by decide, rfl⟩, by constructor <;> decide, rfl, by decide,
    admitted_job _ _ _ _ _ (by decide) (by decide), by decide, by decide, by decide, by decide⟩

/-- A state at the top of the count of site time. -/
def atTop (s : State) : State := { s with siteTime := 4294967295 }

/-- At the top of the count the lease of a new holding ends at once (R142). -/
theorem witness_CheckoutMakesANewHolding_atOnce :
    let s := atTop (State.asked (farmWith farm) (jobFrame 2#16 0#16 1#16))
    let made : Holding := live 0x900 3 0x355 5 2 16 4294967295
    let charged : State :=
      { s with
        holdings := tablePut Holding.initial s.holdings 0 made
        pools := tablePut Pool.initial s.pools 3 (chargedPool (s.pool 3) 16 (s.reserveSum 3) s.siteTime) }
    let lapsed : Holding :=
      { made with state := .lapsed, refs := 0, deadline := 0, endReason := some .lease, eventTime := 4294967295 }
    Taking s (jobFrame 2#16 0#16 1#16) [] ∧ TablesOk s ∧ s.atOnce = []
      ∧ asked s 0x900#16 0x355#16 5#16 0#16 2#16 1#16 = job 2 1 ∧ Admitted s (job 2 1) farm
      ∧ s.choosePath farm.sharing (job 2 1) = .fresh ∧ s.chargeCause farm.pool 0 1 (farm.weight * 2) = none
      ∧ s.allocate = some 0 ∧ farm.clamp (s.siteTime + farm.lease) = 4294967295 ∧ s.siteTime = 4294967295
      ∧ Scanned (leftCounted charged 0 4294967295 lapsed) 3 4294967295 (leftCounted charged 0 4294967295 lapsed) :=
  ⟨⟨rfl, by decide, rfl⟩, by constructor <;> decide, rfl, by decide,
    ⟨rfl, fields_job 2 1 (by decide) (by decide), rfl, ⟨rfl, Nat.zero_le _, nofun⟩,
      notBarred_job farm (jobFrame 2#16 0#16 1#16), .inl rfl, rfl⟩,
    by decide, by decide, by decide, by decide, rfl, scanned_empty (by decide)⟩

/-- The feature 0900h with sharing kind USER. -/
def shared : Feature := { farm with sharing := .user }

/-- A state in which the job's user holds an entry of the feature, in a state and with references. -/
def joining (st : HoldingState) (refs : Nat) : State :=
  { farmWith shared with
    holdings := [(4, { live 0x900 3 0x355 7 1 8 10371000 with state := st, refs := refs })]
    pools := [(3, { Pool.initial with capacity := 48, used := 8, lingering := if st = .lingering then 8 else 0 })] }

theorem notBarred_joining (st : HoldingState) (refs : Nat) (frame : Frame) :
    ¬Barred (State.asked (joining st refs) frame) 0x355 := by
  rintro ⟨u, h, hb⟩
  have e : (State.asked (joining st refs) frame).user 0x355 = some ⟨0#16, .enabled, 3⟩ := rfl
  rw [e] at h
  cases h
  cases hb

theorem admitted_joining (st : HoldingState) (refs : Nat) (frame : Frame) (n : Nat) (hn : 1 ≤ n) (hm : n ≤ 16) :
    Admitted (State.asked (joining st refs) frame) (job n 0) shared :=
  ⟨rfl, fields_job n 0 hn hm, rfl, ⟨rfl, Nat.zero_le _, nofun⟩, notBarred_joining _ _ _, .inl rfl, rfl⟩

theorem held_joining (st : HoldingState) (refs : Nat) (frame : Frame) :
    FeaturesHeld (State.asked (joining st refs) frame) := by
  intro i
  refine every_holding (s := State.asked (joining st refs) frame)
    (P := fun _ h => h.state.counted = true →
      ∃ f, (State.asked (joining st refs) frame).feature h.feature = some f ∧ h.pool = f.pool) ?_ ?_ i
  · intro e he _
    have hl : (State.asked (joining st refs) frame).holdings =
        [(4, { live 0x900 3 0x355 7 1 8 10371000 with state := st, refs := refs })] := rfl
    rw [hl, List.mem_singleton] at he
    subst he
    exact ⟨shared, rfl, rfl⟩
  · intro _ h
    exact absurd h (by decide)

theorem witness_CheckoutJoinsAHolding :
    let s := State.asked (joining .live 65534) (jobFrame 2#16 0#16 0#16)
    let r := State.asked (joining .lingering 0) (jobFrame 1#16 0#16 0#16)
    (Taking s (jobFrame 2#16 0#16 0#16) [] ∧ TablesOk s ∧ s.atOnce = [] ∧ FeaturesHeld s
        ∧ asked s 0x900#16 0x355#16 5#16 0#16 2#16 0#16 = job 2 0 ∧ Admitted s (job 2 0) shared
        ∧ s.chargeCause shared.pool 0 0 (shared.weight * (2 - (s.holding 4).seats)) = none
        ∧ s.siteTime < shared.clamp (s.siteTime + shared.lease) ∧ s.choosePath shared.sharing (job 2 0) = .merge 4
        ∧ (s.holding 4).refs < 65535)
      ∧ (Taking r (jobFrame 1#16 0#16 0#16) [] ∧ TablesOk r ∧ r.atOnce = [] ∧ FeaturesHeld r
        ∧ asked r 0x900#16 0x355#16 5#16 0#16 1#16 0#16 = job 1 0 ∧ Admitted r (job 1 0) shared
        ∧ shared.weight * (1 - (r.holding 4).seats) = 0 ∧ r.siteTime < shared.clamp (r.siteTime + shared.lease)
        ∧ r.choosePath shared.sharing (job 1 0) = .reattach 4) :=
  ⟨⟨⟨rfl, by decide, rfl⟩, by constructor <;> decide, rfl, held_joining _ _ _, by decide,
      admitted_joining _ _ _ _ (by decide) (by decide), by decide, by decide, by decide, by decide⟩,
    ⟨rfl, by decide, rfl⟩, by constructor <;> decide, rfl, held_joining _ _ _, by decide,
    admitted_joining _ _ _ _ (by decide) (by decide), by decide, by decide, by decide⟩

/-- At the top of the count the lease of a merged and of a reattached holding ends at once (R142). -/
theorem witness_CheckoutJoinsAHolding_atOnce :
    let s := atTop (State.asked (joining .live 65534) (jobFrame 2#16 0#16 0#16))
    let r := atTop (State.asked (joining .lingering 0) (jobFrame 1#16 0#16 0#16))
    (Taking s (jobFrame 2#16 0#16 0#16) [] ∧ TablesOk s ∧ s.atOnce = [] ∧ FeaturesHeld s
        ∧ asked s 0x900#16 0x355#16 5#16 0#16 2#16 0#16 = job 2 0 ∧ Admitted s (job 2 0) shared
        ∧ s.chargeCause shared.pool 0 0 (shared.weight * (2 - (s.holding 4).seats)) = none
        ∧ s.choosePath shared.sharing (job 2 0) = .merge 4 ∧ (s.holding 4).refs < 65535
        ∧ shared.clamp (s.siteTime + shared.lease) ≤ s.siteTime ∧ (s.pool 3).queue = []
        ∧ ∀ x, x.pool 3 = s.pool 3 → Scanned x 3 4294967295 x)
      ∧ (Taking r (jobFrame 1#16 0#16 0#16) [] ∧ TablesOk r ∧ r.atOnce = [] ∧ FeaturesHeld r
        ∧ asked r 0x900#16 0x355#16 5#16 0#16 1#16 0#16 = job 1 0 ∧ Admitted r (job 1 0) shared
        ∧ shared.weight * (1 - (r.holding 4).seats) = 0 ∧ r.choosePath shared.sharing (job 1 0) = .reattach 4
        ∧ shared.clamp (r.siteTime + shared.lease) ≤ r.siteTime
        ∧ ∀ x, x.pool 3 = r.pool 3 → Scanned x 3 4294967295 x) :=
  ⟨⟨⟨rfl, by decide, rfl⟩, by constructor <;> decide, rfl, held_joining _ _ (jobFrame 2#16 0#16 0#16), by decide,
      ⟨rfl, fields_job 2 0 (by decide) (by decide), rfl, ⟨rfl, Nat.zero_le _, nofun⟩,
        notBarred_joining .live 65534 (jobFrame 2#16 0#16 0#16), .inl rfl, rfl⟩,
      by decide, by decide, by decide, by decide, by decide, fun x h => scanned_empty (by rw [h]; decide)⟩,
    ⟨rfl, by decide, rfl⟩, by constructor <;> decide, rfl, held_joining _ _ (jobFrame 1#16 0#16 0#16), by decide,
    ⟨rfl, fields_job 1 0 (by decide) (by decide), rfl, ⟨rfl, Nat.zero_le _, nofun⟩,
      notBarred_joining .lingering 0 (jobFrame 1#16 0#16 0#16), .inl rfl, rfl⟩,
    by decide, by decide, by decide, fun x h => scanned_empty (by rw [h]; decide)⟩

/-- With no WAITING waiter and every queue empty the queues are in order. -/
theorem queues_empty {s : State} (hw : ∀ e ∈ s.waiters, e.2.state ≠ .waiting)
    (hq : ∀ e ∈ s.pools, e.2.queue = []) : QueuesOk s := by
  have q : ∀ p, (s.pool p).queue = [] := every_pool (P := fun _ q => q.queue = []) hq fun _ => rfl
  have w : ∀ j, (s.waiter j).state ≠ .waiting := every_waiter (P := fun _ w => w.state ≠ .waiting) hw fun _ => nofun
  refine ⟨fun p j hj => ?_, fun j hj => ?_, fun p => ?_, fun p => ?_⟩
  · rw [q] at hj
    cases hj
  · exact absurd hj (w j)
  · rw [q]
    exact List.nodup_nil
  · rw [q]
    exact List.Pairwise.nil

/-- A list of entries, each holding the same contents. -/
@[irreducible] def everyEntry {α : Type} (n : Nat) (v : α) : Table α := (List.range n).map (fun i => (i, v))

theorem find_everyEntry {α : Type} (n : Nat) (v : α) {i : Nat} (h : i < n) : tableFind (everyEntry n v) i = some v := by
  unfold everyEntry
  exact tableFind_of_mem (List.pairwise_map.mpr List.pairwise_lt_range)
    (List.mem_map.mpr ⟨i, List.mem_range.mpr h, rfl⟩)

/-- Every holding entry LIVE, every waiter entry GRANTED, and a Checkout that costs more than the headroom. -/
def crowded : State :=
  { farmWith farm with
    fifo := [jobFrame 16#16 1#16 0#16]
    holdings := everyEntry 8192 (live 1 1 1 1 1 0 10380000)
    waiters := everyEntry 256 { Waiter.freeEntry 1 with state := .granted } }

/-- Every holding entry LAPSED. -/
def lapsedAll : State :=
  { farmWith farm with holdings := everyEntry 8192 { Holding.freeEntry 1 with state := .lapsed } }

theorem crowded_holdings : crowded.holdings = everyEntry 8192 (live 1 1 1 1 1 0 10380000) := rfl

theorem crowded_waiters : crowded.waiters = everyEntry 256 { Waiter.freeEntry 1 with state := .granted } := rfl

theorem lapsedAll_holdings : lapsedAll.holdings = everyEntry 8192 { Holding.freeEntry 1 with state := .lapsed } := rfl

theorem crowded_waiter (j : Nat) (h : j < 256) : (crowded.waiter j).state = .granted := by
  unfold State.waiter tableGet
  rw [crowded_waiters, find_everyEntry _ _ h, Option.getD_some]

/-- Nothing can be had when no entry is FREE or LAPSED (R71). -/
theorem allocate_none {s : State} (free : ∀ i, i < 8192 → (s.holding i).state ≠ .free)
    (lapsed : ∀ e ∈ s.holdings, e.2.state ≠ .lapsed) : s.allocate = none := by
  have no_free : s.freeEntry = none := by
    unfold State.freeEntry
    cases h : lowestFrom (fun i => (s.holding i).state == .free) Config.holdingEntries 0 with
    | none => rfl
    | some k =>
      obtain ⟨_, hk, hg, _⟩ := lowestFrom_some h
      exact absurd (beq_iff_eq.mp hg) (free k (by simpa using hk))
  have no_lapsed : s.holdings.filter (fun e => e.2.state == .lapsed) = [] := by
    rw [List.filter_eq_nil_iff]
    intro e he h
    exact lapsed e he (beq_iff_eq.mp h)
  simp [State.allocate, no_free, State.lapsedEntry, no_lapsed, firstBy]

/-- With every holding entry LIVE no entry can be had. -/
theorem full_allocate {s : State} (h : s.holdings = everyEntry 8192 (live 1 1 1 1 1 0 10380000)) :
    s.allocate = none := by
  refine allocate_none (fun i hi => ?_) fun e he => ?_
  · unfold State.holding tableGet
    rw [h, find_everyEntry _ _ hi, Option.getD_some]
    decide
  · rw [h] at he
    unfold everyEntry at he
    obtain ⟨i, _, hi⟩ := List.mem_map.mp he
    rw [← hi]
    nofun

theorem crowded_allocate : crowded.allocate = none := full_allocate crowded_holdings

theorem crowded_queues : QueuesOk crowded := by
  refine queues_empty (fun e he => ?_) (by decide)
  rw [crowded_waiters] at he
  unfold everyEntry at he
  obtain ⟨i, _, hi⟩ := List.mem_map.mp he
  rw [← hi]
  nofun

theorem crowded_notBarred : ¬Barred crowded 0x355 := by
  rintro ⟨u, h, hb⟩
  have e : crowded.user 0x355 = some ⟨0#16, .enabled, 3⟩ := rfl
  rw [e] at h
  cases h
  cases hb

theorem fresh_job :
    (State.asked (farmWith farm) (jobFrame 16#16 65535#16 0#16)).choosePath farm.sharing (job 16 0) = .fresh := by
  decide

theorem witness_CheckoutIsHeldBack :
    let s := State.asked (joining .live 65535) (jobFrame 1#16 0#16 0#16)
    let t := State.asked (farmWith farm) (jobFrame 16#16 65535#16 0#16)
    (Taking s (jobFrame 1#16 0#16 0#16) [] ∧ s.atOnce = [] ∧ QueuesOk s ∧ Admitted s (job 1 0) shared
        ∧ s.choosePath shared.sharing (job 1 0) = .merge 4 ∧ 65535 ≤ (s.holding 4).refs)
      ∧ (Taking crowded (jobFrame 16#16 1#16 0#16) [] ∧ crowded.atOnce = [] ∧ QueuesOk crowded
        ∧ Admitted crowded (job 16 0) farm ∧ crowded.allocate = none
        ∧ (∀ j, j < 256 → (crowded.waiter j).state ≠ .free)
        ∧ crowded.chargeCause farm.pool 0 0 128 = some 1)
      ∧ (Taking t (jobFrame 16#16 65535#16 0#16) [] ∧ t.atOnce = [] ∧ QueuesOk t ∧ Admitted t (job 16 0) farm
        ∧ (∀ i, t.choosePath farm.sharing (job 16 0) = .merge i → (t.holding i).refs < 65535)
        ∧ t.pathCost farm.weight 16 (t.choosePath farm.sharing (job 16 0)) ≠ 0
        ∧ t.chargeCause farm.pool 0 0 128 = some 1 ∧ (65535#16).toNat ≠ 0 ∧ (0#16).toNat = 0
        ∧ (t.waiter 0).state = .free ∧ t.siteTime < farm.clamp (t.siteTime + min (65535#16).toNat 3600)) :=
  ⟨⟨⟨rfl, by decide, rfl⟩, rfl, queues_empty (by decide) (by decide), admitted_joining _ _ _ _ (by decide) (by decide),
      by decide, by decide⟩,
    ⟨⟨rfl, by decide, rfl⟩, rfl, crowded_queues,
      ⟨rfl, fields_job 16 0 (by decide) (by decide), rfl, ⟨rfl, Nat.zero_le _, nofun⟩, crowded_notBarred, .inl rfl,
        rfl⟩,
      crowded_allocate, fun j h e => absurd ((crowded_waiter j h).symm.trans e) nofun, by decide⟩,
    ⟨rfl, by decide, rfl⟩, rfl, queues_empty (by decide) (by decide), admitted_job _ _ _ _ _ (by decide) (by decide),
    fun i h => absurd (fresh_job.symm.trans h) nofun,
    by decide, by decide, by decide, by decide, by decide, by decide⟩

/-- At the top of the count a waiter's deadline is reached at once (R142). -/
theorem witness_CheckoutIsHeldBack_atOnce :
    let t := atTop (State.asked (farmWith farm) (jobFrame 16#16 65535#16 0#16))
    Taking t (jobFrame 16#16 65535#16 0#16) [] ∧ t.atOnce = [] ∧ QueuesOk t ∧ TablesOk t ∧ Admitted t (job 16 0) farm
      ∧ (∀ i, t.choosePath farm.sharing (job 16 0) = .merge i → (t.holding i).refs < 65535)
      ∧ t.pathCost farm.weight 16 (t.choosePath farm.sharing (job 16 0)) ≠ 0
      ∧ t.chargeCause farm.pool 0 0 128 = some 1 ∧ (65535#16).toNat ≠ 0 ∧ (t.waiter 0).state = .free
      ∧ farm.clamp (t.siteTime + min (65535#16).toNat 3600) ≤ t.siteTime :=
  ⟨⟨rfl, by decide, rfl⟩, rfl, queues_empty (by decide) (by decide), by constructor <;> decide,
    ⟨rfl, fields_job 16 0 (by decide) (by decide), rfl, ⟨rfl, Nat.zero_le _, nofun⟩,
      notBarred_job farm (jobFrame 16#16 65535#16 0#16), .inl rfl, rfl⟩,
    fun _ h => absurd (fresh_job.symm.trans h) nofun, by decide, by decide, by decide, by decide, by decide⟩

theorem witness_PathFollowsTheKeyIndex :
    TablesOk (joining .live 1) ∧ Sharing.user ≠ .separate ∧ Sharing.station ≠ .separate
      ∧ (joining .live 1).choosePath .user (job 1 0) = .merge 4
      ∧ (joining .lingering 0).choosePath .user (job 1 0) = .reattach 4
      ∧ (joining .lingering 0).choosePath .separate { job 1 0 with host := 7 } = .reattach 4
      ∧ (joining .borrowed 1).choosePath .user (job 1 0) = .fresh :=
  ⟨by constructor <;> decide, by decide, by decide, by decide, by decide, by decide, by decide⟩

theorem witness_AllocationTakesFreeThenOldestLapsed :
    TablesOk surge ∧ surge.allocate = some 3 ∧ crowded.allocate = none
      ∧ (∀ k, k < 8192 → (lapsedAll.holding k).state ≠ .free) ∧ (lapsedAll.holding 0).state = .lapsed := by
  have h : ∀ k, k < 8192 → (lapsedAll.holding k).state = .lapsed := by
    intro k hk
    unfold State.holding tableGet
    rw [lapsedAll_holdings, find_everyEntry _ _ hk, Option.getD_some]
  exact ⟨by constructor <;> decide, by decide, crowded_allocate, fun k hk => by rw [h k hk]; decide, h 0 (by decide)⟩

theorem witness_ChargingConditionWeighsTheBooks :
    (surge.pool 3).isOver = true
      ∧ (let s := { surge with pools := [(3, { surge.pool 3 with isOver := false })] }
        ¬(s.pool 3).isOver = true ∧ (∃ j ∈ (s.pool 3).queue, (s.waiter j).state = .waiting ∧ 1 ≤ (s.waiter j).cls))
      ∧ (let s := farmSite 1
        ¬(s.pool 3).isOver = true ∧ (s.pool 3).queue = []
          ∧ s.allotment 0x301 3 = some { project := 0x301, pool := 3, reserve := 12, cap := some 24, used := 0 }
          ∧ 24 < 0 + 25 ∧ s.headroom 3 0 < 37 ∧ ¬s.headroom 3 0 < 36) :=
  ⟨by decide, ⟨by decide, 0, by decide, by decide, by decide⟩, by decide⟩

/-! #### Holdings, waiters and books -/

/-- A state with one entry of the feature 0B30h, at index 30, in a state and with references. -/
def travelWith (st : HoldingState) (refs : Nat) : State :=
  { travelSite 8000100 refs with
    holdings := [(30, { live 0xB30 10 0x601 1500 1 8 8003600 with gen := 2, state := st, refs := refs })]
    pools := [(10, { Pool.initial with
                      capacity := 24, borrowCap := 8, used := 8, borrowed := if st = .borrowed then 8 else 0 })] }

/-- Entry 30 in a state, every token of its pool its own, and a waiter of another user in the queue. -/
def travelQueue (st : HoldingState) (starved : Bool) (frame : Frame) : State :=
  { travelWith st 1 with
    starved := starved
    fifo := [frame]
    pools := [(10, { Pool.initial with
                      capacity := 8, borrowCap := 8, used := 8, borrowed := if st = .borrowed then 8 else 0,
                      queue := [1] })]
    waiters := [(1, waiting 0xB30 0x700 1 1 0 9000000)] }

/-- The same once entry 30 is FREE. -/
def travelFreed (st : HoldingState) (starved : Bool) (frame : Frame) : State :=
  leftCounted (travelQueue st starved frame) 30 8000100 (Holding.freeEntry 3)

/-- The same once the waiter is granted entry 0. -/
def travelServed (st : HoldingState) (frame : Frame) : State :=
  granted (travelFreed st false frame) 10 1 0 travelFeature 8000100

/-- The freed tokens fit the waiter, in a scan of the pool and in a resumption pass. -/
theorem travel_scans {st : HoldingState} {frame : Frame}
    (serves : Serves (travelFreed st false frame) 10 1 0 travelFeature)
    (empty : ∀ k, k ≠ 10 → ((travelFreed st true frame).pool k).queue = []
      ∧ ((travelServed st frame).pool k).queue = []) (starved : Bool) :
    FreedScanned (travelFreed st starved frame) 10 8000100 (travelServed st frame) := by
  cases starved with
  | true =>
    exact ⟨fun _ _ =>
        pass_of_one (scanned_serves (s := travelFreed st false frame) 8000100 rfl serves) (by decide) empty,
      fun h => absurd h (by rintro (h | h) <;> cases h)⟩
  | false => exact ⟨nofun, fun _ => scanned_serves 8000100 rfl serves⟩

/-- A Release frame and a Return frame for entry 30. -/
def release30 : Frame := [0x0305#16, 1#16, 30#16, 2#16, 1#16]
def return30 : Frame := [0x0504#16, 1#16, 30#16, 2#16]

theorem released_scans : ∀ starved, FreedScanned (travelFreed .live starved release30) 10 8000100
    (travelServed .live release30) :=
  travel_scans
    ⟨by decide, ⟨[], by decide, nofun⟩, passes_of_fresh (by decide) (by decide) rfl rfl (by decide) (by decide),
      by decide, by decide, by decide, by decide⟩
    fun k h => ⟨every_pool (s := travelFreed .live true release30) (P := fun p q => p ≠ 10 → q.queue = []) (by decide)
      (fun _ _ => rfl) k h, every_pool (s := travelServed .live release30) (P := fun p q => p ≠ 10 → q.queue = [])
      (by decide) (fun _ _ => rfl) k h⟩

theorem returned_scans : ∀ starved, FreedScanned (travelFreed .borrowed starved return30) 10 8000100
    (travelServed .borrowed return30) :=
  travel_scans
    ⟨by decide, ⟨[], by decide, nofun⟩, passes_of_fresh (by decide) (by decide) rfl rfl (by decide) (by decide),
      by decide, by decide, by decide, by decide⟩
    fun k h => ⟨every_pool (s := travelFreed .borrowed true return30) (P := fun p q => p ≠ 10 → q.queue = [])
      (by decide) (fun _ _ => rfl) k h, every_pool (s := travelServed .borrowed return30)
      (P := fun p q => p ≠ 10 → q.queue = []) (by decide) (fun _ _ => rfl) k h⟩

theorem witness_HandlesAndTicketsAreChecked :
    let s := travelWith .live 1
    (8192 ≤ (8192#16).toNat ∧ (8191#16).toNat < 8192 ∧ (s.holding 8191).state = .free ∧ (s.holding 30).gen ≠ 1)
      ∧ 1 < (2#16).toNat ∧ (1#16).toNat ≤ 1 ∧ (0#16).toNat = 0 ∧ (1#16).toNat ≠ 0
      ∧ { s with service := .closed }.service = .closed ∧ s.service = .opened
      ∧ 256 ≤ (256#16).toNat ∧ (255#16).toNat < 256 ∧ (s.waiter 255).state = .free ∧ (surge.waiter 0).gen ≠ 2
      ∧ Taking (State.asked s [0x0204#16, 1#16, 8192#16, 1#16]) [0x0204#16, 1#16, 8192#16, 1#16] []
      ∧ Taking (State.asked s [0x0504#16, 1#16, 30#16, 1#16]) [0x0504#16, 1#16, 30#16, 1#16] []
      ∧ Taking (State.asked s [0x0305#16, 1#16, 30#16, 1#16, 2#16]) [0x0305#16, 1#16, 30#16, 1#16, 2#16] []
      ∧ Taking (State.asked s [0x0405#16, 1#16, 30#16, 1#16, 0#16]) [0x0405#16, 1#16, 30#16, 1#16, 0#16] []
      ∧ Taking (State.asked s [0x0604#16, 1#16, 255#16, 1#16]) [0x0604#16, 1#16, 255#16, 1#16] [] :=
  ⟨by decide, by decide, by decide, by decide, by decide, rfl, rfl, by decide, by decide, by decide, by decide,
    ⟨rfl, by decide, rfl⟩, ⟨rfl, by decide, rfl⟩, ⟨rfl, by decide, rfl⟩, ⟨rfl, by decide, rfl⟩,
    ⟨rfl, by decide, rfl⟩⟩

theorem witness_HoldingStateDecidesTheRefusal :
    (30#16).toNat < 8192 ∧ ((travelWith .lingering 0).holding 30).gen = (2#16).toNat
      ∧ ((travelWith .live 1).holding 30).state = .live ∧ ((travelWith .lingering 0).holding 30).state = .lingering
      ∧ ((travelWith .lapsed 0).holding 30).state = .lapsed ∧ ((travelWith .borrowed 1).holding 30).state = .borrowed
      ∧ (travelWith .lapsed 0).service = .opened ∧ (1#16).toNat ≤ 1 ∧ (1#16).toNat ≠ 0
      ∧ Taking (State.asked (travelWith .lapsed 0) [0x0405#16, 1#16, 30#16, 2#16, 1#16])
          [0x0405#16, 1#16, 30#16, 2#16, 1#16] [] :=
  ⟨by decide, by decide, by decide, by decide, by decide, by decide, rfl, by decide, by decide, ⟨rfl, by decide, rfl⟩⟩

theorem witness_RenewGivesAFreshLease :
    let s := State.asked (travelWith .live 1) [0x0204#16, 1#16, 30#16, 2#16]
    Taking s [0x0204#16, 1#16, 30#16, 2#16] [] ∧ s.atOnce = [] ∧ (30#16).toNat < 8192
      ∧ (s.holding 30).gen = (2#16).toNat ∧ (s.holding 30).state = .live
      ∧ s.feature (s.holding 30).feature = some travelFeature ∧ ¬Barred s (s.holding 30).user
      ∧ Barred { s with users := [(0x601, ⟨0#16, .barred, 0⟩)] } (s.holding 30).user
      ∧ s.siteTime < travelFeature.clamp (s.siteTime + travelFeature.lease) :=
  ⟨⟨rfl, by decide, rfl⟩, rfl, by decide, by decide, by decide, by decide, notBarred_of_none (by decide),
    ⟨_, rfl, rfl⟩, by decide⟩

/-- Entry 30 LIVE, its feature's end instant behind site time. -/
def travelEnded (f : Feature) (frame : Frame) : State :=
  { State.asked (travelWith .live 1) frame with features := [(0xB30, f)] }

/-- The feature 0B30h, which has ended with day 91 (7 948 800). -/
def endedFeature : Feature := { travelFeature with linger := 1, endDay := some 91 }

/-- The fresh lease of a feature past its end instant ends at once (R89, R142). -/
theorem witness_RenewGivesAFreshLease_atOnce :
    let s := travelEnded endedFeature [0x0204#16, 1#16, 30#16, 2#16]
    let lapsed : Holding :=
      { s.holding 30 with
        state := .lapsed, refs := 0, deadline := 0, endReason := some .featureEnd, eventTime := 7948800 }
    Taking s [0x0204#16, 1#16, 30#16, 2#16] [] ∧ s.atOnce = [] ∧ (s.holding 30).gen = (2#16).toNat
      ∧ (s.holding 30).state = .live ∧ s.feature (s.holding 30).feature = some endedFeature
      ∧ ¬Barred s (s.holding 30).user ∧ endedFeature.clamp (s.siteTime + endedFeature.lease) = 7948800
      ∧ endedFeature.endInstant = some 7948800 ∧ 7948800 ≤ s.siteTime ∧ TablesOk s ∧ NoDrain s 30
      ∧ Scanned (leftCounted s 30 7948800 lapsed) 10 7948800 (leftCounted s 30 7948800 lapsed) :=
  ⟨⟨rfl, by decide, rfl⟩, rfl, by decide, by decide, by decide, notBarred_of_none (by decide), by decide, by decide,
    by decide, by constructor <;> decide, noDrain_of_active (f := endedFeature) (by decide) rfl,
    scanned_empty (by decide)⟩

/-- A Release whose freed tokens are granted to the waiter, by the scan and by the resumption pass. -/
theorem witness_ReleaseDropsAReferenceOrEndsTheHolding_scans : ∀ starved : Bool,
    let s := travelQueue .live starved release30
    Taking s release30 [] ∧ TablesOk s ∧ s.atOnce = [] ∧ (s.holding 30).gen = (2#16).toNat
      ∧ (s.holding 30).state = .live ∧ s.feature (s.holding 30).feature = some travelFeature
      ∧ (s.holding 30).refs = 1 ∧ travelFeature.linger = 0 ∧ NoDrain s 30
      ∧ FreedScanned (leftCounted s 30 s.siteTime (Holding.freeEntry (nextGen 2))) 10 s.siteTime
          (travelServed .live release30) :=
  fun starved => ⟨⟨rfl, (by decide : 0 < 16), rfl⟩, by cases starved <;> constructor <;> decide, rfl, rfl, rfl, rfl,
    rfl, rfl, noDrain_of_active (f := travelFeature) rfl rfl, released_scans starved⟩

/-- A linger of a feature past its end instant ends at once (R142). -/
theorem witness_ReleaseDropsAReferenceOrEndsTheHolding_atOnce :
    let s := travelEnded endedFeature [0x0305#16, 1#16, 30#16, 2#16, 0#16]
    let lingering : State :=
      { s with
        holdings := tablePut Holding.initial s.holdings 30
          { s.holding 30 with state := .lingering, refs := 0, deadline := 7948800 }
        pools := tablePut Pool.initial s.pools 10 { s.pool 10 with lingering := 8 } }
    let t := leftCounted lingering 30 7948800 (Holding.freeEntry 3)
    Taking s [0x0305#16, 1#16, 30#16, 2#16, 0#16] [] ∧ TablesOk s ∧ s.atOnce = []
      ∧ (s.holding 30).gen = (2#16).toNat ∧ (s.holding 30).state = .live ∧ (s.holding 30).refs = 1
      ∧ s.feature (s.holding 30).feature = some endedFeature ∧ 0 < endedFeature.linger
      ∧ endedFeature.clamp (s.siteTime + endedFeature.linger) = 7948800 ∧ 7948800 ≤ s.siteTime ∧ NoDrain s 30
      ∧ FreedScanned t 10 7948800 t :=
  ⟨⟨rfl, by decide, rfl⟩, by constructor <;> decide, rfl, by decide, by decide, by decide, by decide, by decide,
    by decide, by decide, noDrain_of_active (f := endedFeature) (by decide) rfl, nofun,
    fun _ => scanned_empty (by decide)⟩

theorem witness_ReleaseDropsAReferenceOrEndsTheHolding :
    let s := State.asked (travelWith .live 2) [0x0305#16, 1#16, 30#16, 2#16, 0#16]
    let r := State.asked (travelWith .live 1) [0x0305#16, 1#16, 30#16, 2#16, 1#16]
    let f : Feature := { travelFeature with linger := 1 }
    Taking s [0x0305#16, 1#16, 30#16, 2#16, 0#16] [] ∧ TablesOk s ∧ s.atOnce = [] ∧ (30#16).toNat < 8192
      ∧ (s.holding 30).gen = (2#16).toNat ∧ (s.holding 30).state = .live
      ∧ s.feature (s.holding 30).feature = some travelFeature ∧ (0#16).toNat ≤ 1 ∧ 1 < (s.holding 30).refs
      ∧ (r.holding 30).refs = 1 ∧ travelFeature.linger = 0 ∧ NoOneServed r (r.holding 30).pool ∧ NoDrain r 30
      ∧ Taking r [0x0305#16, 1#16, 30#16, 2#16, 1#16] [] ∧ TablesOk r ∧ 0 < f.linger
      ∧ { s with features := [(0xB30, f)] }.feature 0xB30 = some f ∧ s.siteTime < f.clamp (s.siteTime + f.linger) :=
  ⟨⟨rfl, by decide, rfl⟩, by constructor <;> decide, rfl, by decide, by decide, by decide, by decide, by decide,
    by decide, by decide, rfl, .inr ⟨by decide, rfl⟩, noDrain_of_active (f := travelFeature) (by decide) rfl,
    ⟨rfl, by decide, rfl⟩, by constructor <;> decide, by decide, by decide, by decide⟩

theorem witness_BorrowConvertsTheHolding :
    let s := State.asked (travelWith .live 1) [0x0405#16, 1#16, 30#16, 2#16, 65535#16]
    Taking s [0x0405#16, 1#16, 30#16, 2#16, 65535#16] [] ∧ s.atOnce = [] ∧ s.service = .opened
      ∧ (30#16).toNat < 8192 ∧ (65535#16).toNat ≠ 0 ∧ (s.holding 30).gen = (2#16).toNat
      ∧ (s.holding 30).state = .live ∧ s.feature (s.holding 30).feature = some travelFeature
      ∧ Barred { s with users := [(0x601, ⟨0#16, .barred, 0⟩)] } (s.holding 30).user
      ∧ ¬Barred s (s.holding 30).user ∧ farm.borrowMax = 0 ∧ travelFeature.borrowMax ≠ 0
      ∧ 1 < ((travelWith .live 2).holding 30).refs ∧ (s.holding 30).refs = 1
      ∧ { s.pool 10 with borrowed := 1 }.borrowCap < { s.pool 10 with borrowed := 1 }.borrowed + (s.holding 30).tokens
      ∧ (s.pool 10).borrowed + (s.holding 30).tokens ≤ (s.pool 10).borrowCap
      ∧ s.siteTime < travelFeature.clamp (s.siteTime + min (65535#16).toNat travelFeature.borrowMax * 86400) :=
  ⟨⟨rfl, by decide, rfl⟩, rfl, rfl, by decide, by decide, by decide, by decide, by decide, ⟨_, rfl, rfl⟩,
    notBarred_of_none (by decide), rfl, by decide, by decide, by decide, by decide, by decide, by decide⟩

theorem witness_ReturnFreesTheBorrowedHolding :
    let s := State.asked (travelWith .borrowed 1) [0x0504#16, 1#16, 30#16, 2#16]
    Taking s [0x0504#16, 1#16, 30#16, 2#16] [] ∧ TablesOk s ∧ s.atOnce = [] ∧ (30#16).toNat < 8192
      ∧ (s.holding 30).gen = (2#16).toNat ∧ (s.holding 30).state = .borrowed ∧ NoOneServed s (s.holding 30).pool
      ∧ NoDrain s 30 :=
  ⟨⟨rfl, by decide, rfl⟩, by constructor <;> decide, rfl, by decide, by decide, by decide, .inr ⟨by decide, rfl⟩,
    noDrain_of_active (f := travelFeature) (by decide) rfl⟩

/-- A Return whose freed tokens are granted to the waiter, by the scan and by the resumption pass. -/
theorem witness_ReturnFreesTheBorrowedHolding_scans : ∀ starved : Bool,
    let s := travelQueue .borrowed starved return30
    Taking s return30 [] ∧ TablesOk s ∧ s.atOnce = [] ∧ (s.holding 30).gen = (2#16).toNat
      ∧ (s.holding 30).state = .borrowed ∧ NoDrain s 30
      ∧ FreedScanned (leftCounted s 30 s.siteTime (Holding.freeEntry (nextGen 2))) 10 s.siteTime
          (travelServed .borrowed return30) :=
  fun starved => ⟨⟨rfl, (by decide : 0 < 16), rfl⟩, by cases starved <;> constructor <;> decide, rfl, rfl, rfl,
    noDrain_of_active (f := travelFeature) rfl rfl, returned_scans starved⟩

/-- A borrow of a feature past its end instant ends at once (R102, R142). -/
theorem witness_BorrowConvertsTheHolding_atOnce :
    let s := travelEnded endedFeature [0x0405#16, 1#16, 30#16, 2#16, 65535#16]
    let converted : State :=
      { s with
        holdings := tablePut Holding.initial s.holdings 30
          { s.holding 30 with state := .borrowed, refs := 1, deadline := 7948800 }
        pools := tablePut Pool.initial s.pools 10 { s.pool 10 with borrowed := 8 } }
    let t := leftCounted converted 30 7948800
      { s.holding 30 with
        state := .lapsed, refs := 0, deadline := 0, endReason := some .borrowEnd, eventTime := 7948800 }
    Taking s [0x0405#16, 1#16, 30#16, 2#16, 65535#16] [] ∧ s.atOnce = [] ∧ s.service = .opened ∧ TablesOk s
      ∧ (s.holding 30).gen = (2#16).toNat ∧ (s.holding 30).state = .live ∧ (s.holding 30).refs = 1
      ∧ s.feature (s.holding 30).feature = some endedFeature ∧ ¬Barred s (s.holding 30).user
      ∧ endedFeature.borrowMax ≠ 0 ∧ (s.pool 10).borrowed + (s.holding 30).tokens ≤ (s.pool 10).borrowCap
      ∧ endedFeature.clamp (s.siteTime + min (65535#16).toNat endedFeature.borrowMax * 86400) = 7948800
      ∧ 7948800 ≤ s.siteTime ∧ NoDrain s 30 ∧ Scanned t 10 7948800 t :=
  ⟨⟨rfl, by decide, rfl⟩, rfl, rfl, by constructor <;> decide, by decide, by decide, by decide, by decide,
    notBarred_of_none (by decide), by decide, by decide, by decide, by decide,
    noDrain_of_active (f := endedFeature) (by decide) rfl, scanned_empty (by decide)⟩

theorem witness_QueryHoldingReportsTheEntry :
    let s := State.asked (travelWith .lapsed 0) [0x0704#16, 1#16, 30#16, 2#16]
    Taking s [0x0704#16, 1#16, 30#16, 2#16] [] ∧ 8192 ≤ (8192#16).toNat ∧ (8191#16).toNat < 8192
      ∧ (s.holding 8191).state = .free ∧ (s.holding 30).gen = (2#16).toNat ∧ (s.holding 30).state ≠ .free :=
  ⟨⟨rfl, by decide, rfl⟩, by decide, by decide, by decide, by decide, by decide⟩

/-- A waiter that is GRANTED, and one that is ENDED. -/
def servedWaiters : State :=
  { farmSite 10370300 with
    waiters :=
      [(0, { Waiter.freeEntry 1 with state := .granted, eventTime := 10370300 }),
        (255, { Waiter.freeEntry 255 with state := .ended, endReason := some .timeout, eventTime := 10370200 })] }

theorem witness_CancelWaitFreesTheWaiter :
    let s := State.asked surge [0x0604#16, 1#16, 0#16, 1#16]
    Taking s [0x0604#16, 1#16, 0#16, 1#16] [] ∧ s.atOnce = [] ∧ (255#16).toNat < 256
      ∧ (s.waiter 0).gen = (1#16).toNat ∧ (s.waiter 0).state = .waiting ∧ s.feature (s.waiter 0).feature = some farm
      ∧ (servedWaiters.waiter 0).state = .granted ∧ (servedWaiters.waiter 0).gen = (1#16).toNat
      ∧ (servedWaiters.waiter 255).state = .ended ∧ (servedWaiters.waiter 255).gen = (255#16).toNat
      ∧ servedWaiters.atOnce = [] :=
  ⟨⟨rfl, by decide, rfl⟩, rfl, by decide, by decide, by decide, by decide, by decide, by decide, by decide, by decide,
    rfl⟩

theorem witness_QueryPoolReportsTheBooks :
    let s := State.asked (farmSite 1) [0x0804#16, 1#16, 3#16, 0x301#16]
    Taking s [0x0804#16, 1#16, 3#16, 0x301#16] [] ∧ 64 ≤ (64#16).toNat ∧ (63#16).toNat < 64 ∧ (7#16).toNat ≠ 0
      ∧ (7#16).toNat ∉ s.projects ∧ (0#16).toNat = 0 ∧ (0x301#16).toNat ∈ s.projects
      ∧ s.allotment 0x301 63 = none
      ∧ s.allotment 0x301 3 = some { project := 0x301, pool := 3, reserve := 12, cap := some 24, used := 0 }
      ∧ { s with allotments := [⟨0x301, 3, 12, none, 0⟩] }.allotment 0x301 3 = some ⟨0x301, 3, 12, none, 0⟩ :=
  ⟨⟨rfl, by decide, rfl⟩, by decide, by decide, by decide, by decide, by decide, by decide, by decide, by decide,
    by decide⟩

/-- The entries of a state of few listed entries agree with the law of entries. -/
theorem entries_of_listed {s : State}
    (hh : ∀ e ∈ s.holdings, 1 ≤ e.2.gen ∧ e.2.gen ≤ 255 ∧ e.2.refsOk ∧ e.1 < 8192)
    (hw : ∀ e ∈ s.waiters, 1 ≤ e.2.gen ∧ e.2.gen ≤ 255 ∧ e.1 < 256) : EntriesOk s where
  holding_gen := every_holding (P := fun _ h => 1 ≤ h.gen ∧ h.gen ≤ 255) (fun e he => ⟨(hh e he).1, (hh e he).2.1⟩)
    fun _ => by decide
  waiter_gen := every_waiter (P := fun _ w => 1 ≤ w.gen ∧ w.gen ≤ 255) (fun e he => ⟨(hw e he).1, (hw e he).2.1⟩)
    fun _ => by decide
  references := every_holding (P := fun _ h => h.refsOk) (fun e he => (hh e he).2.2.1) fun _ => rfl
  holdings_fit := every_holding (P := fun i h => 8192 ≤ i → h.state = .free)
    (fun e he h => absurd (hh e he).2.2.2 (Nat.not_lt.mpr h)) fun _ _ => rfl
  waiters_fit := every_waiter (P := fun j w => 256 ≤ j → w.state = .free)
    (fun e he h => absurd (hw e he).2.2 (Nat.not_lt.mpr h)) fun _ _ => rfl

theorem entries_farm (f : Frame) : EntriesOk (State.asked (farmSite 1) f) := entries_of_listed nofun nofun

theorem witness_QueryFeatureReportsTheRecord :
    let s := State.asked (farmSite 1) [0x2A03#16, 1#16, 0x900#16]
    Taking s [0x2A03#16, 1#16, 0x900#16] [] ∧ TablesOk s ∧ EntriesOk s ∧ { s with admen := false }.admen = false
      ∧ s.admen = true ∧ (0#16).toNat = 0 ∧ s.feature 1 = none ∧ s.feature (0x900#16).toNat = some farm :=
  ⟨⟨rfl, by decide, rfl⟩, by constructor <;> decide, entries_farm _, rfl, rfl, rfl, by decide, by decide⟩

/-! #### Notices -/

theorem witness_NextNoticeChoosesAKind :
    let s := State.asked servedWaiters [0x0903#16, 1#16, 0#16]
    Taking s [0x0903#16, 1#16, 0#16] [] ∧ 5 < (6#16).toNat ∧ (5#16).toNat = NoticeKind.drained.position
      ∧ s.records .drained = [] ∧ (0#16).toNat = 0
      ∧ (∀ k, ((farmSite 1).notices.of k).enable = true → (farmSite 1).records k = [])
      ∧ (s.notices.of .grant).enable = true ∧ s.records .grant ≠ []
      ∧ ∀ k', (s.notices.of k').enable = true → s.records k' ≠ [] →
          (s.notices.of k').level < (s.notices.of .grant).level
            ∨ ((s.notices.of k').level = (s.notices.of .grant).level
              ∧ NoticeKind.grant.position ≤ k'.position) :=
  ⟨⟨rfl, by decide, rfl⟩, by decide, by decide, by decide, by decide, fun k => by cases k <;> decide, by decide,
    by decide, fun k => by cases k <;> decide⟩

/-- A state with one pending record of each kind. -/
def pendingAll : State :=
  { servedWaiters with
    holdings := [(8191, { Holding.freeEntry 1 with state := .lapsed, eventTime := 7 })]
    pools := [(63, { Pool.initial with overMark := some 7 })]
    drained := [⟨5, 7⟩] }

theorem witness_NextNoticeReportsAndConsumesTheOldest :
    let s := State.asked pendingAll [0x0903#16, 1#16, 1#16]
    Taking s [0x0903#16, 1#16, 1#16] [] ∧ TablesOk s ∧ s.atOnce = []
      ∧ ((s.waiter 0).state = .granted ∧ (s.waiter 0).eventTime = 10370300
        ∧ ∀ k, (s.waiter k).state = .granted →
            10370300 < (s.waiter k).eventTime ∨ (10370300 = (s.waiter k).eventTime ∧ 0 ≤ k))
      ∧ ((s.waiter 255).state = .ended ∧ (s.waiter 255).eventTime = 10370200
        ∧ ∀ k, (s.waiter k).state = .ended →
            10370200 < (s.waiter k).eventTime ∨ (10370200 = (s.waiter k).eventTime ∧ 255 ≤ k))
      ∧ ((s.holding 8191).state = .lapsed ∧ (s.holding 8191).eventTime = 7 ∧ s.starved = false
        ∧ ∀ k, (s.holding k).state = .lapsed →
            7 < (s.holding k).eventTime ∨ (7 = (s.holding k).eventTime ∧ 8191 ≤ k))
      ∧ ((s.pool 63).overMark = some 7
        ∧ ∀ k time, (s.pool k).overMark = some time → 7 < time ∨ (7 = time ∧ 63 ≤ k))
      ∧ ({ feature := 5, eventTime := 7 } ∈ s.drained
        ∧ ∀ d ∈ s.drained, 7 < d.eventTime ∨ (7 = d.eventTime ∧ 5 ≤ d.feature)) :=
  ⟨⟨rfl, by decide, rfl⟩, by constructor <;> decide, rfl,
    ⟨by decide, by decide, every_waiter (s := State.asked pendingAll [0x0903#16, 1#16, 1#16])
      (P := fun k w => w.state = .granted → 10370300 < w.eventTime ∨ (10370300 = w.eventTime ∧ 0 ≤ k)) (by decide)
      fun _ => nofun⟩,
    ⟨by decide, by decide, every_waiter (s := State.asked pendingAll [0x0903#16, 1#16, 1#16])
      (P := fun k w => w.state = .ended → 10370200 < w.eventTime ∨ (10370200 = w.eventTime ∧ 255 ≤ k)) (by decide)
      fun _ => nofun⟩,
    ⟨by decide, by decide, rfl, every_holding (s := State.asked pendingAll [0x0903#16, 1#16, 1#16])
      (P := fun k h => h.state = .lapsed → 7 < h.eventTime ∨ (7 = h.eventTime ∧ 8191 ≤ k)) (by decide)
      fun _ => nofun⟩,
    ⟨by decide, every_pool (s := State.asked pendingAll [0x0903#16, 1#16, 1#16])
      (P := fun k q => ∀ time, q.overMark = some time → 7 < time ∨ (7 = time ∧ 63 ≤ k))
      (fun e he time h => by
        have hl : (State.asked pendingAll [0x0903#16, 1#16, 1#16]).pools =
            [(63, { Pool.initial with overMark := some 7 })] := rfl
        rw [hl, List.mem_singleton] at he
        subst he
        cases h
        decide)
      fun _ => nofun⟩,
    by decide, by decide⟩

/-- A LAPSE record pending, the entry-starved mark set in an OPEN service, and a waiter in the queue. -/
def noticing : State :=
  State.asked
    { gapSite .opened with
      siteTime := 9001500
      starved := true
      pools := [(2, { Pool.initial with capacity := 16, used := 8, queue := [3] })]
      holdings := [(70, lapsed70), (71, live 0xC50 2 2 1 1 8 9004000)] }
    [0x0903#16, 1#16, 3#16]

/-- The same with the LAPSED entry freed. -/
def noticed : State :=
  { noticing with holdings := tablePut Holding.initial noticing.holdings 70 (Holding.freeEntry 2) }

/-- A LAPSE report that starts the resumption pass, which grants the waiter. -/
theorem witness_NextNoticeReportsAndConsumesTheOldest_pass :
    Taking noticing [0x0903#16, 1#16, 3#16] [] ∧ TablesOk noticing ∧ noticing.atOnce = []
      ∧ (noticing.holding 70).state = .lapsed ∧ (noticing.holding 70).eventTime = 9001000
      ∧ (∀ k, (noticing.holding k).state = .lapsed →
          9001000 < (noticing.holding k).eventTime ∨ (9001000 = (noticing.holding k).eventTime ∧ 70 ≤ k))
      ∧ noticing.starved = true ∧ noticing.service = .opened
      ∧ PassMade noticed 9001500 (granted { noticed with starved := false } 2 3 0 gapFeature 9001500) :=
  ⟨⟨rfl, by decide, rfl⟩, by constructor <;> decide, rfl, by decide, by decide,
    every_holding (s := noticing)
      (P := fun k h => h.state = .lapsed → 9001000 < h.eventTime ∨ (9001000 = h.eventTime ∧ 70 ≤ k)) (by decide)
      fun _ => nofun,
    rfl, rfl,
    pass_of_one
      (scanned_serves _ rfl ⟨by decide, ⟨[], by decide, nofun⟩,
        passes_of_fresh (by decide) (by decide) rfl rfl (by decide) (by decide), by decide, by decide, by decide,
        by decide⟩)
      (by decide)
      fun k h => ⟨every_pool (s := noticed) (P := fun p q => p ≠ 2 → q.queue = []) (by decide) (fun _ _ => rfl) k h,
        every_pool (s := granted { noticed with starved := false } 2 3 0 gapFeature 9001500)
          (P := fun p q => p ≠ 2 → q.queue = []) (by decide) (fun _ _ => rfl) k h⟩⟩

/-! #### Set Time and the service -/

theorem witness_SetTimeToTheSameSecondRestartsTheDivider :
    let s := State.asked (farmSite 10370000) [0x2004#16, 1#16, 158#16, 15312#16]
    Taking s [0x2004#16, 1#16, 158#16, 15312#16] [] ∧ s.admen = true ∧ s.timeState = .set
      ∧ value32 158#16 15312#16 = s.siteTime ∧ 0 < 32768 ∧ 32767 < 32768 :=
  ⟨⟨rfl, by decide, rfl⟩, rfl, rfl, by decide, by decide, by decide⟩

/-- A Set Time to 9 001 000. -/
def steppingFrame : Frame := [0x2004#16, 1#16, 137#16, 22568#16]

/-- The state of section 11.5 without its waiter, and a step to the second of one lease expiry. -/
def stepping : State := State.asked { gapSite .closed with waiters := [] } steppingFrame

/-- The state of section 11.5, OPEN, its first lease ending at a second, with a step to 9 003 000. -/
def crossing (lease : Nat) : State :=
  State.asked
    { gapSite .opened with holdings := [(70, live 0xC50 2 1 1 1 8 lease), (71, live 0xC50 2 2 1 1 8 9004000)] }
    [0x2004#16, 1#16, 137#16, 24568#16]

theorem witness_SetTimeStepsForward :
    let s := State.asked { State.reset with admen := true } [0x2004#16, 1#16, 65535#16, 65535#16]
    let t := State.asked (gapSite .closed) [0x2004#16, 1#16, 137#16, 21569#16]
    (Taking s [0x2004#16, 1#16, 65535#16, 65535#16] [] ∧ s.admen = true ∧ s.atOnce = [] ∧ s.timeState = .unset
        ∧ ∀ d ∈ s.deadlines, value32 65535#16 65535#16 < d.second)
      ∧ (Taking t [0x2004#16, 1#16, 137#16, 21569#16] [] ∧ t.admen = true ∧ t.atOnce = [] ∧ t.timeState = .set
        ∧ t.siteTime < value32 137#16 21569#16 ∧ ∀ d ∈ t.deadlines, value32 137#16 21569#16 < d.second)
      ∧ (Taking stepping steppingFrame [] ∧ stepping.admen = true ∧ stepping.atOnce = []
        ∧ stepping.deadlines.filter (fun d => decide (d.second ≤ value32 137#16 22568#16)) =
          [⟨9001000, .leaseExpiry, 70⟩]
        ∧ TablesOk stepping ∧ stepping.timeState = .set ∧ stepping.siteTime < value32 137#16 22568#16
        ∧ (stepping.holding 70).state = .live ∧ NoOneServed stepping (stepping.holding 70).pool
        ∧ NoDrain stepping 70)
      ∧ (∀ lease ∈ [9001000, 9002500],
          let u := crossing lease
          u.admen = true ∧ u.atOnce = [] ∧ u.reached = [] ∧ u.timeState = .set ∧ u.service = .opened
            ∧ u.siteTime < value32 137#16 24568#16
            ∧ u.deadlines.filter (fun d => decide (d.second ≤ value32 137#16 24568#16)) =
              [⟨lease, .leaseExpiry, 70⟩, ⟨9002000, .waitDeadline, 3⟩]
            ∧ (u.holding 70).state = .live ∧ (u.holding 70).pool = 2 ∧ (u.pool 2).queue = [3]
            ∧ (u.waiter 3).state = .waiting ∧ u.feature (u.waiter 3).feature = some gapFeature)
      ∧ (Taking (crossing 9001000) [0x2004#16, 1#16, 137#16, 24568#16] [] ∧ TablesOk (crossing 9001000)
        ∧ NoDrain (crossing 9001000) 70
        ∧ Serves (leftCounted { crossing 9001000 with siteTime := 9003000 } 70 9001000 lapsed70) 2 3 0 gapFeature)
      ∧ (Taking (crossing 9002500) [0x2004#16, 1#16, 137#16, 24568#16] [] ∧ TablesOk (crossing 9002500)
        ∧ NoDrain (crossing 9002500) 70)
      ∧ (Taking overtaken [0x2004#16, 1#16, 137#16, 23568#16] [] ∧ overtaken.admen = true ∧ overtaken.atOnce = []
        ∧ TablesOk overtaken ∧ overtaken.timeState = .set ∧ overtaken.siteTime < value32 137#16 23568#16
        ∧ (overtaken.holding 70).state = .live ∧ NoDrain overtaken 70 ∧ overtaken.service = .opened
        ∧ Serves (leftCounted overtaken 70 9001000 lapsed70) 2 3 0 gapFeature
        ∧ ∀ d ∈ (granted (leftCounted overtaken 70 9001000 lapsed70) 2 3 0 gapFeature 9001000).deadlines,
            value32 137#16 23568#16 < d.second) :=
  ⟨⟨⟨rfl, by decide, rfl⟩, rfl, rfl, rfl, by decide⟩,
    ⟨⟨rfl, by decide, rfl⟩, rfl, rfl, rfl, by decide, by decide⟩,
    ⟨⟨rfl, by decide, rfl⟩, rfl, rfl, by decide, by constructor <;> decide, rfl, by decide, by decide, .inl rfl,
    noDrain_of_active (f := gapFeature) (by decide) rfl⟩, by decide,
    ⟨⟨rfl, by decide, rfl⟩, by constructor <;> decide, noDrain_of_active (f := gapFeature) (by decide) rfl,
      ⟨by decide, ⟨[], by decide, nofun⟩,
        passes_of_fresh (by decide) (by decide) rfl rfl (by decide) (by decide), by decide, by decide, by decide,
        by decide⟩⟩,
    ⟨⟨rfl, by decide, rfl⟩, by constructor <;> decide, noDrain_of_active (f := gapFeature) (by decide) rfl⟩,
    ⟨rfl, by decide, rfl⟩, rfl, rfl, by constructor <;> decide, rfl, by decide, by decide,
    noDrain_of_active (f := gapFeature) (by decide) rfl, rfl,
    overtaken_serves, by decide⟩

/-- The state of section 11.5, OPEN, with a step to the second of the first lease expiry. -/
def steppingServed : State := State.asked (gapSite .opened) steppingFrame

/-- The same after the step and the lapse. -/
def steppedServed : State :=
  leftCounted
    { answered steppingServed [] (reply 0x20#8 1#16 0x00#8 1 (two 9001000)) with
      siteTime := 9001000, timeState := .set, divider := 0 }
    70 9001000 lapsed70

/-- A step over one lease expiry, whose scan grants a waiter. -/
theorem witness_SetTimeStepsForward_scans :
    Taking steppingServed steppingFrame [] ∧ steppingServed.admen = true ∧ steppingServed.atOnce = []
      ∧ TablesOk steppingServed ∧ steppingServed.timeState = .set
      ∧ steppingServed.siteTime < value32 137#16 22568#16
      ∧ (steppingServed.holding 70).state = .live ∧ NoDrain steppingServed 70 ∧ steppingServed.reached = []
      ∧ steppingServed.deadlines.filter (fun d => decide (d.second ≤ value32 137#16 22568#16)) =
          [⟨9001000, .leaseExpiry, 70⟩]
      ∧ Scanned steppedServed 2 9001000 (granted steppedServed 2 3 0 gapFeature 9001000) :=
  ⟨⟨rfl, by decide, rfl⟩, rfl, rfl, by constructor <;> decide, rfl, by decide, by decide,
    noDrain_of_active (f := gapFeature) (by decide) rfl, rfl, by decide,
    scanned_serves _ rfl ⟨by decide, ⟨[], by decide, nofun⟩,
      passes_of_fresh (by decide) (by decide) rfl rfl (by decide) (by decide), by decide, by decide, by decide,
      by decide⟩⟩

theorem witness_SetTimeStepsBackOnlyWhenAllIsFree :
    let s := State.asked (gapSite .closed) [0x2004#16, 1#16, 0#16, 0#16]
    let t := State.asked (farmSite 10370000) [0x2004#16, 1#16, 158#16, 15311#16]
    Taking s [0x2004#16, 1#16, 0#16, 0#16] [] ∧ TablesOk s ∧ s.admen = true ∧ s.timeState = .set
      ∧ value32 0#16 0#16 < s.siteTime ∧ (∃ i, (s.holding i).state ≠ .free)
      ∧ (¬(∃ i, ({ s with holdings := [] }.holding i).state ≠ .free)
        ∧ ∃ j, ({ s with holdings := [] }.waiter j).state ≠ .free)
      ∧ Taking t [0x2004#16, 1#16, 158#16, 15311#16] [] ∧ TablesOk t ∧ value32 158#16 15311#16 < t.siteTime
      ∧ ¬(∃ i, (t.holding i).state ≠ .free) ∧ ¬∃ j, (t.waiter j).state ≠ .free :=
  ⟨⟨rfl, by decide, rfl⟩, by constructor <;> decide, rfl, rfl, by decide, ⟨70, by decide⟩,
    ⟨fun ⟨_, h⟩ => h rfl, 3, by decide⟩, ⟨rfl, by decide, rfl⟩, by constructor <;> decide, by decide,
    fun ⟨_, h⟩ => h rfl, fun ⟨_, h⟩ => h rfl⟩

/-- The state of section 11.5 with its queue widened: ahead of its waiter one whose feature's end instant has come, one
whose merge has no reference left, and one that its project's cap holds back. The pool has
used a number of its 16 tokens. -/
def queueing (used : Nat) : State :=
  State.asked
    { gapSite .closed with
      features := [(0xC50, gapFeature), (0xC51, { gapFeature with endDay := some 1 }),
        (0xC52, { gapFeature with sharing := .user })]
      pools := [(2, { Pool.initial with capacity := 16, used := used, queue := [4, 5, 6, 3] })]
      allotments := [{ project := 7, pool := 2, reserve := 0, cap := some 4, used := 0 }]
      holdings := [(70, live 0xC50 2 1 1 1 8 9001000), (72, { live 0xC52 2 9 1 1 8 9001000 with refs := 65535 })]
      waiters := [(3, waiting 0xC50 3 1 1 0 9002000), (4, waiting 0xC51 4 1 1 0 9002000),
        (5, waiting 0xC52 9 1 1 0 9002000), (6, { waiting 0xC50 6 1 1 0 9002000 with project := 7 })] }
    [0x2102#16, 1#16]

theorem queueing_passes (used : Nat) : ∀ j ∈ [4, 5, 6], PassedOver (queueing used) 2 j := by
  intro j hj
  obtain rfl | rfl | rfl : j = 4 ∨ j = 5 ∨ j = 6 := by simpa using hj
  · exact ⟨{ gapFeature with endDay := some 1 }, rfl, rfl, rfl, .inl ⟨1, rfl, (by decide : 172800 ≤ 9000000)⟩⟩
  · exact ⟨{ gapFeature with sharing := .user }, rfl, rfl, rfl, .inr (.inl ⟨72, rfl, Nat.le_refl 65535⟩)⟩
  · exact ⟨gapFeature, rfl, rfl, rfl,
      .inr (.inr ⟨(by decide : 8 ≠ 0), _, 4, rfl, rfl, (by decide : 4 < 0 + 8)⟩)⟩

theorem queueing_grants_no_one : GrantsNoOne (queueing 16) 2 :=
  ⟨[4, 5, 6], [3], by decide, queueing_passes _,
    .inr ⟨3, [], gapFeature, rfl, passes_of_fresh (by decide) (by decide) rfl rfl (by decide) (by decide), by decide⟩⟩

theorem no_one_of_empty {s : State} {p : Nat} (h : (s.pool p).queue = []) : GrantsNoOne s p :=
  ⟨[], [], h, nofun, .inl rfl⟩

/-- Every holding entry LIVE, and a waiter that could pay for a new one. -/
def starving : State :=
  { crowded with
    service := .closed
    fifo := [[0x2102#16, 1#16]]
    pools := [(3, { Pool.initial with capacity := 48, queue := [0] })]
    waiters := [(0, waiting 0x900 0x355 5 1 0 10380000)] }

theorem starving_fresh : starving.choosePath .separate (starving.waiter 0).asking = .fresh := by
  have none_lingers : starving.holdings.filter
      (fun e => sharesReattachKey (starving.waiter 0).asking e.2) = [] := by
    rw [List.filter_eq_nil_iff]
    intro e he
    have hl : starving.holdings = everyEntry 8192 (live 1 1 1 1 1 0 10380000) := rfl
    rw [hl] at he
    unfold everyEntry at he
    obtain ⟨i, _, hi⟩ := List.mem_map.mp he
    rw [← hi]
    nofun
  simp [State.choosePath, State.reattachEntry, none_lingers, firstBy]

theorem starving_cost : scanCost starving 0 farm = 8 := by
  unfold scanCost
  rw [show farm.sharing = .separate from rfl, starving_fresh]
  decide

theorem starving_stops : StopsForAnEntry starving 3 :=
  ⟨[], 0, [], farm, by decide, nofun, passes_of_fresh (by decide) (by decide) rfl rfl starving_fresh (by decide),
    by rw [starving_cost]; decide, starving_fresh, full_allocate rfl⟩

theorem witness_ServiceOpensAndCloses :
    let u := State.asked { State.reset with admen := true } [0x2102#16, 1#16]
    let c := State.asked (gapSite .opened) [0x2202#16, 1#16]
    (Taking u [0x2102#16, 1#16] [] ∧ u.admen = true ∧ u.timeState = .unset)
      ∧ (gapSite .opened).service = .opened
      ∧ (Taking (queueing 16) [0x2102#16, 1#16] [] ∧ (queueing 16).admen = true ∧ (queueing 16).atOnce = []
        ∧ (queueing 16).timeState = .set ∧ (queueing 16).service = .closed
        ∧ ∀ p, p < 64 → ((queueing 16).pool p).isOver = true ∨ GrantsNoOne (queueing 16) p)
      ∧ (Taking starving [0x2102#16, 1#16] [] ∧ starving.admen = true ∧ starving.atOnce = []
        ∧ starving.timeState = .set ∧ starving.service = .closed
        ∧ (∀ p, p < 64 →
          (starving.pool p).isOver = true ∨ GrantsNoOne starving p ∨ StopsForAnEntry starving p)
        ∧ ∃ p, p < 64 ∧ (starving.pool p).isOver = false ∧ StopsForAnEntry starving p)
      ∧ (Taking c [0x2202#16, 1#16] [] ∧ c.admen = true ∧ c.service = .opened) := by
  refine ⟨⟨⟨rfl, by decide, rfl⟩, rfl, rfl⟩, rfl, ⟨⟨rfl, by decide, rfl⟩, rfl, rfl, rfl, rfl, fun p _ => .inr ?_⟩,
    ⟨⟨rfl, by decide, rfl⟩, rfl, rfl, rfl, rfl, fun p _ => .inr ?_, 3, by decide, by decide, starving_stops⟩,
    ⟨rfl, by decide, rfl⟩, rfl, rfl⟩
  · rcases eq_or_ne p 2 with rfl | h
    · exact queueing_grants_no_one
    · exact no_one_of_empty (every_pool (s := queueing 16) (P := fun p q => p ≠ 2 → q.queue = []) (by decide)
        (fun _ _ => rfl) p h)
  · rcases eq_or_ne p 3 with rfl | h
    · exact .inr starving_stops
    · exact .inl (no_one_of_empty (every_pool (s := starving) (P := fun p q => p ≠ 3 → q.queue = []) (by decide)
        (fun _ _ => rfl) p h))

/-- The same with eight tokens free: the waiter at the end of the queue can be served. -/
abbrev reopening : State := queueing 8

theorem witness_OpeningGrantsTheWaiterThatFits :
    (Taking reopening [0x2102#16, 1#16] [] ∧ reopening.admen = true ∧ TablesOk reopening ∧ reopening.atOnce = []
        ∧ reopening.timeState = .set ∧ reopening.service = .closed
        ∧ (∀ k, k < 64 → k ≠ 2 → (reopening.pool k).queue = []) ∧ Serves reopening 2 3 0 gapFeature)
      ∧ (TablesOk resuming ∧ resuming.atOnce = [] ∧ resuming.service = .opened ∧ resuming.starved = true
        ∧ (resuming.holding 5).state = .lingering
        ∧ resuming.reachedOf .lingerEnd 5 = some ⟨7200600, .lingerEnd, 5⟩ ∧ NoDrain resuming 5
        ∧ (∀ k, k < 64 → k ≠ 8 → (resumed.pool k).queue = []) ∧ Serves resumed 8 9 0 lingerFeature) :=
  ⟨⟨⟨rfl, by decide, rfl⟩, rfl, by constructor <;> decide, rfl, rfl, rfl,
      fun k _ h => every_pool (s := reopening) (P := fun p q => p ≠ 2 → q.queue = []) (by decide) (fun _ _ => rfl)
        k h,
      by decide, ⟨[4, 5, 6], by decide, queueing_passes _⟩,
      passes_of_fresh (by decide) (by decide) rfl rfl (by decide) (by decide), by decide, by decide, by decide,
      by decide⟩,
    by constructor <;> decide, rfl, rfl, rfl, by decide, by decide,
    noDrain_of_active (f := lingerFeature) (by decide) rfl,
    fun k _ h => (resumed_others k h).1, resumed_serves⟩

/-- A CLOSED service with two queues. In pool 2 the first waiter has a new holding for the last 8 tokens, the second
reattaches entry 72 and the third merges into entry 70, each at no cost, and the fourth is held back; the waiter of pool
8 has a new holding. -/
def gathering : State :=
  State.asked
    { gapSite .closed with
      features := [(0xA20, lingerFeature), (0xC50, gapFeature), (0xC52, { gapFeature with sharing := .user })]
      pools := [(2, { Pool.initial with capacity := 24, used := 16, lingering := 8, queue := [3, 4, 5, 6] }),
        (8, { Pool.initial with capacity := 10, queue := [9] })]
      holdings := [(70, live 0xC50 2 5 1 1 8 9001000),
        (72, { live 0xC52 2 4 1 1 8 9001000 with state := .lingering, refs := 0 })]
      waiters := [(3, waiting 0xC50 3 1 1 0 9002000), (4, waiting 0xC52 4 2 1 0 9002000),
        (5, waiting 0xC50 5 1 1 0 9002000), (6, waiting 0xC50 6 1 1 0 9002000), (9, waiting 0xA20 7 1 1 0 9002000)] }
    [0x2102#16, 1#16]

/-! The pass over the two pools, grant by grant. -/

def opened0 : State := { gathering with service := .opened, starved := false }
def granted3 : State := granted opened0 2 3 0 gapFeature 9000000
def reattached4 : State := joined granted3 2 4 72 { gapFeature with sharing := .user } 9000000
def merged5 : State := joined reattached4 2 5 70 gapFeature 9000000
def granted9 : State := granted merged5 8 9 1 lingerFeature 9000000

theorem gathering_back : granted3.choosePath .user (granted3.waiter 4).asking = .reattach 72 := by decide

theorem gathering_tests : PassesTests granted3 2 4 { gapFeature with sharing := .user } :=
  passes_of_path (by decide) (by decide) rfl rfl (fun _ h => absurd (gathering_back.symm.trans h) nofun) (by decide)

theorem gathered_scanned : Scanned opened0 2 9000000 merged5 := by
  refine ⟨fun _ _ => .inl ?_, fun c => absurd c (by decide)⟩
  rw [show (opened0.pool 2).queue = [3, 4, 5, 6] by decide]
  exact
    .makes (passes_of_fresh (by decide) (by decide) rfl rfl (by decide) (by decide)) (by decide) (by decide) (by decide)
      (by decide) <|
    .reattaches gathering_tests (by decide) gathering_back (by decide) (by decide) (by decide) <|
    .merges (passes_of_path (by decide) (by decide) rfl rfl (fun _ h => by cases h; decide) (by decide)) (by decide)
      (by decide) (by decide) (by decide) (by decide) <|
    .heldBack (f := gapFeature) (passes_of_fresh (by decide) (by decide) rfl rfl (by decide) (by decide)) (by decide)

theorem gathered_eight : Scanned merged5 8 9000000 granted9 :=
  scanned_serves _ rfl ⟨by decide, ⟨[], by decide, nofun⟩,
    passes_of_fresh (by decide) (by decide) rfl rfl (by decide) (by decide), by decide, by decide, by decide,
    by decide⟩

/-- A pass that grants three waiters of one pool, each in its own way, and then one of another pool. -/
theorem witness_OpeningGrantsTheWaiterThatFits_pass :
    Taking gathering [0x2102#16, 1#16] [] ∧ gathering.admen = true ∧ TablesOk gathering ∧ gathering.atOnce = []
      ∧ gathering.timeState = .set ∧ gathering.service = .closed
      ∧ PassMade { gathering with service := .opened } gathering.siteTime granted9
      ∧ (granted9.waiter 3).merged = false ∧ (granted9.waiter 4).merged = true
      ∧ (granted9.waiter 5).merged = true ∧ (granted9.holding 70).refs = 2
      ∧ (granted9.holding 72).state = .live ∧ (granted9.pool 2).used = 24
      ∧ (granted9.pool 2).lingering = 0 ∧ (granted9.pool 2).queue = [6]
      ∧ (granted9.waiter 9).handleIndex = 1 :=
  ⟨⟨rfl, by decide, rfl⟩, rfl, by constructor <;> decide, rfl, rfl, rfl,
    pass_of_two gathered_scanned gathered_eight (by decide) (by decide) fun k h g =>
      ⟨every_pool (s := gathering) (P := fun p q => p ≠ 2 → p ≠ 8 → q.queue = []) (by decide) (fun _ _ _ => rfl) k h g,
        every_pool (s := merged5) (P := fun p q => p ≠ 2 → p ≠ 8 → q.queue = []) (by decide) (fun _ _ _ => rfl)
          k h g,
        every_pool (s := granted9) (P := fun p q => p ≠ 2 → p ≠ 8 → q.queue = []) (by decide) (fun _ _ _ => rfl)
          k h g⟩,
    by decide, by decide, by decide, by decide, by decide, by decide, by decide, by decide, by decide⟩

/-! A pass at the top of the count with one FREE entry: the waiter of pool 2 has it, its holding lapses at once, and the
waiter of pool 8 reclaims the LAPSED entry (R119, R142). -/

/-- The LIVE holding in every other entry. -/
def lastLive : Holding := live 1 1 1 1 1 0 4294967295

/-- A feature of pool 2 and one of pool 8. -/
def nearFeature : Feature := { farm with pool := 2 }
def farFeature : Feature := { farm with pool := 8 }

/-- The CLOSED service at the top of the count, with entry 8191 FREE. -/
def exhausting : State :=
  State.asked
    { gapSite .closed with
      siteTime := 4294967295
      features := [(1, farm), (0xC50, nearFeature), (0xC51, farFeature)]
      pools := [(2, { Pool.initial with capacity := 8, queue := [3] }),
        (8, { Pool.initial with capacity := 8, queue := [9] })]
      holdings := everyEntry 8191 lastLive
      waiters := [(3, waiting 0xC50 3 1 1 0 4294967295), (9, waiting 0xC51 7 1 1 0 4294967295)] }
    [0x2102#16, 1#16]

/-- The pass: opened, then with the waiter of pool 2 served, then with the waiter of pool 8 served. -/
def exhausted0 : State := { exhausting with service := .opened, starved := false }
def exhausted2 : State := grantedAndLapsed exhausted0 2 3 8191 nearFeature 4294967295
def exhausted8 : State := grantedAndLapsed exhausted2 8 9 8191 farFeature 4294967295

/-- The holdings of a state after a grant whose holding has lapsed. -/
theorem grantedAndLapsed_holding (s : State) (p j k : Nat) (f : Feature) (evt i : Nat) (h : i ≠ k) :
    (grantedAndLapsed s p j k f evt).holding i = s.holding i := by
  unfold grantedAndLapsed leftCounted granted State.holding
  simp only [tableGet_put, if_neg h]

theorem grantedAndLapsed_lapsed (s : State) (p j k : Nat) (f : Feature) (evt : Nat) :
    ((grantedAndLapsed s p j k f evt).holding k).state = .lapsed := by
  unfold grantedAndLapsed leftCounted granted State.holding
  simp only [tableGet_put_same]

/-- The waiters and the pools that such a grant leaves alone. -/
theorem grantedAndLapsed_waiter (s : State) (p j k : Nat) (f : Feature) (evt m : Nat) (h : m ≠ j) :
    (grantedAndLapsed s p j k f evt).waiter m = s.waiter m := by
  unfold grantedAndLapsed leftCounted granted State.waiter
  simp only [tableGet_put, if_neg h]

theorem grantedAndLapsed_pool (s : State) (p j k : Nat) (f : Feature) (evt q : Nat) (h : q ≠ p) :
    (grantedAndLapsed s p j k f evt).pool q = s.pool q := by
  unfold grantedAndLapsed leftCounted granted State.holding State.pool
  simp only [tableGet_put, if_true, if_neg h]

theorem grantedAndLapsed_canonical {s : State} (h : TableCanonical Holding.initial s.holdings) (p j k : Nat)
    (f : Feature) (evt : Nat) :
    TableCanonical Holding.initial (grantedAndLapsed s p j k f evt).holdings :=
  tablePut_canonical (tablePut_canonical h _ _) _ _

/-- What holds of every entry holds of every listed one. -/
theorem listed_holding {s : State} (ht : TableRising s.holdings) {P : Nat → Holding → Prop}
    (h : ∀ i, P i (s.holding i)) : ∀ e ∈ s.holdings, P e.1 e.2 := by
  intro e he
  have at_e := h e.1
  unfold State.holding tableGet at at_e
  rwa [tableFind_of_mem ht he, Option.getD_some] at at_e

/-- With no LINGERING holding a waiter of a SEPARATE feature has a new holding. -/
theorem separate_fresh {s : State} (h : ∀ e ∈ s.holdings, e.2.state ≠ .lingering) (a : Asking) :
    s.choosePath .separate a = .fresh := by
  have none_lingers : s.holdings.filter (fun e => sharesReattachKey a e.2) = [] := by
    rw [List.filter_eq_nil_iff]
    intro e he hk
    simp only [sharesReattachKey, Bool.and_eq_true, beq_iff_eq] at hk
    exact h e he hk.1.1.1.1
  simp [State.choosePath, State.reattachEntry, none_lingers, firstBy]

/-- The one FREE entry is had. -/
theorem allocate_free {s : State} {k : Nat} (hk : k < 8192) (free : (s.holding k).state = .free)
    (lower : ∀ i, i < k → (s.holding i).state ≠ .free) : s.allocate = some k := by
  have found : s.freeEntry = some k := by
    unfold State.freeEntry
    cases h : lowestFrom (fun i => (s.holding i).state == .free) Config.holdingEntries 0 with
    | none => exact absurd (lowestFrom_none h k (Nat.zero_le _) (by simpa using hk)) (by simp [free])
    | some i =>
      obtain ⟨_, _, hi, below⟩ := lowestFrom_some h
      rcases Nat.lt_trichotomy i k with g | rfl | g
      · exact absurd (beq_iff_eq.mp hi) (lower i g)
      · rfl
      · exact absurd (below k (Nat.zero_le _) g) (by simp [free])
  simp [State.allocate, found]

/-- The one LAPSED entry is had where none is FREE. -/
theorem allocate_lapsed {s : State} {k : Nat} (ht : TableRising s.holdings)
    (free : ∀ i, i < 8192 → (s.holding i).state ≠ .free) (lapsed : (s.holding k).state = .lapsed)
    (only : ∀ i, (s.holding i).state = .lapsed → i = k) : s.allocate = some k := by
  have no_free : s.freeEntry = none := by
    unfold State.freeEntry
    cases h : lowestFrom (fun i => (s.holding i).state == .free) Config.holdingEntries 0 with
    | none => rfl
    | some i =>
      obtain ⟨_, hi, hg, _⟩ := lowestFrom_some h
      exact absurd (beq_iff_eq.mp hg) (free i (by simpa using hi))
  have found : s.lapsedEntry = some k := by
    unfold State.lapsedEntry
    cases h : firstBy (fun x y => timeThenIndex (x.2.eventTime, x.1) (y.2.eventTime, y.1))
        (s.holdings.filter (fun e => e.2.state == .lapsed)) with
    | none =>
      rw [firstBy_none, List.filter_eq_nil_iff] at h
      have all := every_holding (s := s) (P := fun _ h => h.state ≠ .lapsed)
        (fun e he hl => h e he (beq_iff_eq.mpr hl)) (fun _ => nofun)
      exact absurd lapsed (all k)
    | some e =>
      obtain ⟨he, hl⟩ := List.mem_filter.mp (firstBy_mem h)
      exact congrArg some (listed_holding ht (P := fun i h => h.state = .lapsed → i = k) only e he (beq_iff_eq.mp hl))
  simp [State.allocate, no_free, found]

theorem exhausting_canonical : TableCanonical Holding.initial exhausting.holdings := by
  have hl : exhausting.holdings = everyEntry 8191 lastLive := rfl
  rw [hl, everyEntry]
  refine ⟨List.pairwise_map.mpr List.pairwise_lt_range, fun e he => ?_⟩
  obtain ⟨i, _, rfl⟩ := List.mem_map.mp he
  exact nofun

theorem exhausted0_live (i : Nat) (h : i < 8191) : exhausted0.holding i = lastLive := by
  have hl : exhausted0.holdings = everyEntry 8191 lastLive := rfl
  unfold State.holding tableGet
  rw [hl, find_everyEntry _ _ h, Option.getD_some]

theorem exhausted0_free (i : Nat) (h : 8191 ≤ i) : (exhausted0.holding i).state = .free := by
  have hl : exhausted0.holdings = everyEntry 8191 lastLive := rfl
  unfold State.holding tableGet
  cases hf : tableFind exhausted0.holdings i with
  | none => rfl
  | some v =>
    have hm := mem_of_tableFind hf
    rw [hl, everyEntry] at hm
    obtain ⟨m, hm, he⟩ := List.mem_map.mp hm
    have below : m < 8191 := List.mem_range.mp hm
    have same : m = i := congrArg Prod.fst he
    omega

theorem exhausted2_state (i : Nat) : (exhausted2.holding i).state =
    if i < 8191 then .live else if i = 8191 then .lapsed else .free := by
  rcases Nat.lt_trichotomy i 8191 with h | rfl | h
  · rw [exhausted2, grantedAndLapsed_holding _ _ _ _ _ _ _ (by omega), exhausted0_live i h, if_pos h]
    rfl
  · rw [exhausted2, grantedAndLapsed_lapsed, if_neg (Nat.lt_irrefl _), if_pos rfl]
  · rw [exhausted2, grantedAndLapsed_holding _ _ _ _ _ _ _ (by omega), exhausted0_free i (by omega),
      if_neg (by omega), if_neg (by omega)]

theorem exhausted2_canonical : TableCanonical Holding.initial exhausted2.holdings :=
  grantedAndLapsed_canonical (s := exhausted0) exhausting_canonical ..

theorem exhausted0_fresh (a : Asking) : exhausted0.choosePath .separate a = .fresh := by
  refine separate_fresh (listed_holding (s := exhausted0) (P := fun _ h => h.state ≠ .lingering)
    exhausting_canonical.1 fun i => ?_) a
  rcases Nat.lt_or_ge i 8191 with h | h
  · rw [exhausted0_live i h]
    decide
  · rw [exhausted0_free i h]
    decide

theorem exhausted2_fresh (a : Asking) : exhausted2.choosePath .separate a = .fresh := by
  refine separate_fresh (listed_holding (P := fun _ h => h.state ≠ .lingering) exhausted2_canonical.1 fun i => ?_) a
  rw [exhausted2_state]
  split_ifs <;> decide

theorem exhausted0_serves : ServesAtOnce exhausted0 2 3 8191 nearFeature where
  queued := by decide
  active := rfl
  tests := passes_of_fresh (by decide) (by decide) rfl rfl (exhausted0_fresh _) (by decide)
  afforded := by
    unfold scanCost
    rw [show nearFeature.sharing = .separate from rfl, exhausted0_fresh]
    decide
  fresh := exhausted0_fresh _
  entry := allocate_free (by decide) (exhausted0_free _ (Nat.le_refl _)) fun i h => by
    rw [exhausted0_live i h]
    decide
  lease := by decide

theorem exhausted2_waiter : exhausted2.waiter 9 = exhausted0.waiter 9 :=
  grantedAndLapsed_waiter _ _ _ _ _ _ _ (by decide)

theorem exhausted2_pool : exhausted2.pool 8 = exhausted0.pool 8 := grantedAndLapsed_pool _ _ _ _ _ _ _ (by decide)

theorem exhausted2_serves : ServesAtOnce exhausted2 8 9 8191 farFeature where
  queued := by
    rw [exhausted2_pool]
    decide
  active := rfl
  tests := passes_of_fresh (by rw [exhausted2_waiter]; decide) (by rw [exhausted2_waiter]; exact rfl) rfl rfl
    (exhausted2_fresh _) rfl
  afforded := by
    unfold scanCost State.headroom
    rw [show farFeature.sharing = .separate from rfl, exhausted2_fresh, exhausted2_waiter, exhausted2_pool]
    decide
  fresh := exhausted2_fresh _
  entry := allocate_lapsed exhausted2_canonical.1
    (fun i h => by rw [exhausted2_state]; split_ifs <;> first | decide | omega)
    (by rw [exhausted2_state]; rfl)
    fun i h => by
      rw [exhausted2_state] at h
      split_ifs at h
      assumption
  lease := by decide

/-- Each pool that has a queue, before and after its scan. -/
theorem exhausted_queues (k : Nat) (h2 : k ≠ 2) (h8 : k ≠ 8) :
    (exhausting.pool k).queue = [] ∧ (exhausted2.pool k).queue = [] ∧ (exhausted8.pool k).queue = [] := by
  have start : (exhausting.pool k).queue = [] :=
    every_pool (s := exhausting) (P := fun p q => p ≠ 2 → p ≠ 8 → q.queue = []) (by decide) (fun _ _ _ => rfl) k h2 h8
  have two : exhausted2.pool k = exhausted0.pool k := grantedAndLapsed_pool _ _ _ _ _ _ _ h2
  have eight : exhausted8.pool k = exhausted2.pool k := grantedAndLapsed_pool _ _ _ _ _ _ _ h8
  exact ⟨start, by rw [two]; exact start, by rw [eight, two]; exact start⟩

/-- A pass at the top of the count whose second grant has the LAPSED entry that the first has made. -/
theorem witness_OpeningGrantsTheWaiterThatFits_top :
    Taking exhausting [0x2102#16, 1#16] [] ∧ exhausting.admen = true ∧ TablesOk exhausting ∧ exhausting.atOnce = []
      ∧ exhausting.timeState = .set ∧ exhausting.service = .closed
      ∧ PassMade { exhausting with service := .opened } exhausting.siteTime exhausted8
      ∧ (exhausted0.holding 8191).state = .free ∧ exhausted0.allocate = some 8191
      ∧ (exhausted2.holding 8191).state = .lapsed ∧ exhausted2.allocate = some 8191 :=
  ⟨⟨rfl, by decide, rfl⟩, rfl,
    ⟨by decide, by decide, by decide, by decide, by decide, by decide, by decide, exhausting_canonical, by decide⟩,
    rfl, rfl, rfl,
    pass_of_two (scanned_at_once (s := exhausted0) _ rfl (by decide) exhausted0_serves)
      (scanned_at_once (s := exhausted2) _ rfl (by rw [exhausted2_pool]; decide) exhausted2_serves) (by decide)
      (by decide) exhausted_queues,
    exhausted0_free _ (Nat.le_refl _), exhausted0_serves.entry, grantedAndLapsed_lapsed .., exhausted2_serves.entry⟩

/-! #### Table edits -/

theorem witness_PoolsAndProjectsAreEdited :
    let s := State.asked surge [0x2305#16, 1#16, 63#16, 0#16, 0#16]
    let p := State.asked (farmSite 1) [0x2403#16, 1#16, 7#16]
    let r := State.asked surge [0x2503#16, 1#16, 0x301#16]
    (Taking s [0x2305#16, 1#16, 63#16, 0#16, 0#16] [] ∧ s.admen = true ∧ s.atOnce = [] ∧ TablesOk s
        ∧ 64 ≤ (64#16).toNat ∧ (63#16).toNat < 64 ∧ NoOneServed s 63)
      ∧ (Taking p [0x2403#16, 1#16, 7#16] [] ∧ p.admen = true ∧ (0#16).toNat = 0 ∧ (7#16).toNat ≠ 0
        ∧ 0x301 ∈ p.projects ∧ 7 ∉ p.projects ∧ p.projects.length < 128
        ∧ 128 ≤ { p with projects := List.range' 8 128 }.projects.length
        ∧ 7 ∉ { p with projects := List.range' 8 128 }.projects)
      ∧ (Taking r [0x2503#16, 1#16, 0x301#16] [] ∧ r.admen = true ∧ TablesOk r ∧ (0x301#16).toNat ∈ r.projects
        ∧ (∃ i, (r.holding i).state.counted = true ∧ (r.holding i).project = 0x301)
        ∧ (∃ j, ({ r with holdings := [] }.waiter j).state = .waiting
          ∧ ({ r with holdings := [] }.waiter j).project = 0x301)
        ∧ ¬(∃ i, ({ r with holdings := [] }.holding i).state.counted = true
          ∧ ({ r with holdings := [] }.holding i).project = 0x301)
        ∧ (∃ a ∈ r.allotments, a.project = 0x301)
        ∧ ¬(∃ j, ({ r with waiters := [] }.waiter j).state = .waiting
          ∧ ({ r with waiters := [] }.waiter j).project = 0x301)
        ∧ ¬∃ a ∈ { r with allotments := [] }.allotments, a.project = 0x301) :=
  ⟨⟨⟨rfl, by decide, rfl⟩, rfl, rfl, by constructor <;> decide, by decide, by decide, .inr ⟨by decide, rfl⟩⟩,
    ⟨⟨rfl, by decide, rfl⟩, rfl, by decide, by decide, by decide, by decide, by decide, by simp, by simp⟩,
    ⟨rfl, by decide, rfl⟩, rfl, by constructor <;> decide, by decide, ⟨2, by decide⟩, ⟨1, by decide⟩,
    (fun ⟨_, h, _⟩ => by cases h), by decide, (fun ⟨_, h, _⟩ => by cases h), by decide⟩

/-- The state of section 11.5, OPEN, its pool widened to 24 tokens of which project 7 reserves 8: the waiter is held
back until the capacity rises or the reserve falls. -/
def easing (frame : Frame) : State :=
  State.asked
    { gapSite .opened with
      projects := [7]
      allotments := [⟨7, 2, 8, some 4, 0⟩]
      pools := [(2, { Pool.initial with capacity := 24, used := 16, queue := [3] })] }
    frame

/-- A frame that raises the capacity to 32. -/
def raise32 : Frame := [0x2305#16, 1#16, 2#16, 32#16, 0#16]

/-- The state that it leads to before the scan. -/
def raised : State :=
  { easing raise32 with
    pools := tablePut Pool.initial (easing raise32).pools 2
      (withOver { (easing raise32).pool 2 with capacity := 32 } 8 9000000) }

/-- A capacity that rises, whose scan grants the waiter, and one that falls, which asks for none. -/
theorem witness_PoolsAndProjectsAreEdited_scans :
    let s := easing raise32
    Taking s raise32 [] ∧ s.admen = true ∧ s.atOnce = [] ∧ TablesOk s ∧ s.service = .opened
      ∧ (s.pool 2).queue = [3] ∧ (s.pool 2).capacity < (32#16).toNat ∧ ¬(s.pool 2).capacity < (24#16).toNat
      ∧ ¬(s.pool 2).isOver = true ∧ Scanned raised 2 s.siteTime (granted raised 2 3 0 gapFeature s.siteTime) :=
  ⟨⟨rfl, by decide, rfl⟩, rfl, rfl, by constructor <;> decide, rfl, by decide, by decide, by decide, by decide,
    scanned_serves _ rfl ⟨by decide, ⟨[], by decide, nofun⟩,
      passes_of_fresh (by decide) (by decide) rfl rfl (by decide) (by decide), by decide, by decide, by decide,
      by decide⟩⟩

/-- Many copies of an allotment of one pool give none of another. -/
theorem allotment_replicate {s : State} {a : Allotment} {n project pool : Nat} (h : a.pool ≠ pool) :
    { s with allotments := List.replicate n a }.allotment project pool = none := by
  simp [State.allotment, Allotment.keyed, h]

theorem witness_AllotmentsAreEdited :
    let s := State.asked (farmSite 1) [0x2607#16, 1#16, 0x301#16, 3#16, 0#16, 1#16, 0#16]
    let r := State.asked (farmSite 1) [0x2704#16, 1#16, 0x301#16, 3#16]
    let a : Allotment := { project := 0x301, pool := 3, reserve := 12, cap := some 24, used := 0 }
    (Taking s [0x2607#16, 1#16, 0x301#16, 3#16, 0#16, 1#16, 0#16] [] ∧ s.admen = true ∧ s.atOnce = [] ∧ TablesOk s
        ∧ (0#16).toNat = 0 ∧ 64 ≤ (64#16).toNat ∧ (63#16).toNat < 64 ∧ 1 < (2#16).toNat ∧ (1#16).toNat ≤ 1
        ∧ s.allotment 0x301 3 = some a ∧ NoOneServed s 3 ∧ s.allotment 7 3 = none ∧ 7 ∉ s.projects
        ∧ s.allotment 0x301 63 = none ∧ 0x301 ∈ s.projects ∧ s.allotments.length < 256
        ∧ 256 ≤ { s with allotments := List.replicate 256 a }.allotments.length
        ∧ { s with allotments := List.replicate 256 a }.allotment 0x301 63 = none)
      ∧ (Taking r [0x2704#16, 1#16, 0x301#16, 3#16] [] ∧ r.admen = true ∧ r.atOnce = [] ∧ TablesOk r
        ∧ r.allotment 0x301 3 = some a ∧ a.used = 0 ∧ NoOneServed r 3 ∧ r.allotment 0x301 63 = none
        ∧ surge.allotment 0x301 3 = some { a with used := 8 } ∧ 0 < { a with used := 8 }.used) :=
  ⟨⟨⟨rfl, by decide, rfl⟩, rfl, rfl, by constructor <;> decide, by decide, by decide, by decide, by decide,
      by decide, by decide, .inr ⟨by decide, rfl⟩, by decide, by decide, by decide, by decide, by decide,
      Nat.le_of_eq List.length_replicate.symm, allotment_replicate (by decide)⟩,
    ⟨rfl, by decide, rfl⟩, rfl, rfl, by constructor <;> decide, by decide, rfl, .inr ⟨by decide, rfl⟩, by decide,
    by decide, by decide⟩

/-- A frame that lowers the reserve of project 7 to 0, and one that removes its allotment. -/
def lower7 : Frame := [0x2607#16, 1#16, 7#16, 2#16, 0#16, 1#16, 4#16]
def remove7 : Frame := [0x2704#16, 1#16, 7#16, 2#16]

/-- A state of `easing` with its reserve sum at 0, the allotments as they are listed. -/
def eased (frame : Frame) (l : List Allotment) : State :=
  { easing frame with
    allotments := l
    pools := tablePut Pool.initial (easing frame).pools 2 (withOver ((easing frame).pool 2) 0 9000000) }

/-- A reserve that falls and an allotment that is removed, whose scans grant the waiter; caps that rise, fall, go and
stay, and a reserve that stays. -/
theorem witness_AllotmentsAreEdited_scans :
    let s := easing lower7
    let r := easing remove7
    (Taking s lower7 [] ∧ s.admen = true ∧ s.atOnce = [] ∧ TablesOk s
        ∧ s.allotment 7 2 = some ⟨7, 2, 8, some 4, 0⟩ ∧ (0#16).toNat < 8 ∧ s.service = .opened
        ∧ (s.pool 2).queue = [3]
        ∧ Scanned (eased lower7 [⟨7, 2, 0, some 4, 0⟩]) 2 s.siteTime
            (granted (eased lower7 [⟨7, 2, 0, some 4, 0⟩]) 2 3 0 gapFeature s.siteTime))
      ∧ (let capEases (carried : Option Nat) : Prop := ∃ old, some 4 = some old ∧ ∀ new, carried = some new → old < new
        capEases none ∧ capEases (some 5) ∧ ¬capEases (some 4) ∧ ¬capEases (some 0) ∧ ¬(8#16).toNat < 8
          ∧ ¬(s.pool 2).isOver = true)
      ∧ (Taking r remove7 [] ∧ r.admen = true ∧ r.atOnce = [] ∧ TablesOk r
        ∧ r.allotment 7 2 = some ⟨7, 2, 8, some 4, 0⟩
        ∧ Scanned (eased remove7 []) 2 r.siteTime (granted (eased remove7 []) 2 3 0 gapFeature r.siteTime)) :=
  ⟨⟨⟨rfl, by decide, rfl⟩, rfl, rfl, by constructor <;> decide, by decide, by decide, rfl, by decide,
      scanned_serves _ rfl ⟨by decide, ⟨[], by decide, nofun⟩,
        passes_of_fresh (by decide) (by decide) rfl rfl (by decide) (by decide), by decide, by decide, by decide,
        by decide⟩⟩,
    by simp; decide,
    ⟨rfl, by decide, rfl⟩, rfl, rfl, by constructor <;> decide, by decide,
    scanned_serves _ rfl ⟨by decide, ⟨[], by decide, nofun⟩,
      passes_of_fresh (by decide) (by decide) rfl rfl (by decide) (by decide), by decide, by decide, by decide,
      by decide⟩⟩

/-- The words that define the feature 0900h. -/
def farmWords : FeatureWords :=
  { code := 0x900#16, pool := 3#16, weight := 8#16, sharing := 0#16, startDay := 0#16, endDay := 65535#16,
    leaseHi := 0#16, leaseLo := 1800#16, linger := 0#16, borrowMax := 0#16, chainFlag := 0#16, chain := 0#16 }

/-- Words at their boundaries, with no failing field. -/
def edgeWords : FeatureWords :=
  { code := 65535#16, pool := 63#16, weight := 255#16, sharing := 2#16, startDay := 49709#16, endDay := 49709#16,
    leaseHi := 1#16, leaseLo := 20864#16, linger := 3600#16, borrowMax := 30#16, chainFlag := 1#16,
    chain := 2047#16 }

theorem farmWords_pass (n : Nat) : ¬farmWords.fails n := by
  simp [FeatureWords.fails, farmWords, value32]

theorem edgeWords_pass (n : Nat) : ¬edgeWords.fails n := by
  simp [FeatureWords.fails, edgeWords, value32]

/-- With only one word changed, and that word failing, no lower word fails. -/
theorem lower_pass {x : FeatureWords} {n : Nat} (h : ∀ m, x.fails m → m = n) : ∀ m, m < n → ¬x.fails m :=
  fun m hm hf => Nat.ne_of_lt hm (h m hf)

theorem witness_DefineFeatureNamesTheLowestFailingWord :
    let s := State.asked (farmSite 1) (farmWords.frame 1#16)
    (Taking s (farmWords.frame 1#16) [] ∧ s.admen = true)
      ∧ ({ farmWords with code := 0#16 }.fails 2 ∧ ∀ m, m < 2 → ¬{ farmWords with code := 0#16 }.fails m)
      ∧ ({ farmWords with pool := 64#16 }.fails 3 ∧ ∀ m, m < 3 → ¬{ farmWords with pool := 64#16 }.fails m)
      ∧ ({ farmWords with weight := 256#16 }.fails 4 ∧ ∀ m, m < 4 → ¬{ farmWords with weight := 256#16 }.fails m)
      ∧ ({ farmWords with sharing := 3#16 }.fails 5 ∧ ∀ m, m < 5 → ¬{ farmWords with sharing := 3#16 }.fails m)
      ∧ ({ farmWords with startDay := 49710#16 }.fails 6
        ∧ ∀ m, m < 6 → ¬{ farmWords with startDay := 49710#16 }.fails m)
      ∧ ({ farmWords with endDay := 49710#16 }.fails 7 ∧ ∀ m, m < 7 → ¬{ farmWords with endDay := 49710#16 }.fails m)
      ∧ ({ farmWords with leaseLo := 59#16 }.fails 8 ∧ ∀ m, m < 8 → ¬{ farmWords with leaseLo := 59#16 }.fails m)
      ∧ ({ farmWords with linger := 3601#16 }.fails 10 ∧ ∀ m, m < 10 → ¬{ farmWords with linger := 3601#16 }.fails m)
      ∧ ({ farmWords with borrowMax := 31#16 }.fails 11
        ∧ ∀ m, m < 11 → ¬{ farmWords with borrowMax := 31#16 }.fails m)
      ∧ ({ farmWords with chainFlag := 2#16 }.fails 12
        ∧ ∀ m, m < 12 → ¬{ farmWords with chainFlag := 2#16 }.fails m)
      ∧ ({ edgeWords with chain := 2048#16 }.fails 13
        ∧ ∀ m, m < 13 → ¬{ edgeWords with chain := 2048#16 }.fails m) := by
  refine ⟨⟨⟨rfl, by decide, rfl⟩, rfl⟩, ⟨?_, lower_pass ?_⟩, ⟨?_, lower_pass ?_⟩, ⟨?_, lower_pass ?_⟩,
    ⟨?_, lower_pass ?_⟩, ⟨?_, lower_pass ?_⟩, ⟨?_, lower_pass ?_⟩, ⟨?_, lower_pass ?_⟩, ⟨?_, lower_pass ?_⟩,
    ⟨?_, lower_pass ?_⟩, ⟨?_, lower_pass ?_⟩, ⟨?_, lower_pass ?_⟩⟩
  all_goals simp [FeatureWords.fails, farmWords, edgeWords, value32]

/-- A site whose feature 0900h ends with day 120. -/
def endingSite (f : Frame) : State :=
  State.asked { surge with features := [(0x900, { farm with endDay := some 120, endLodged := true })] } f

theorem witness_DefineFeatureCreatesOrReplaces :
    let frame := farmWords.frame 1#16
    let s := State.asked { farmSite 1 with features := [] } frame
    let t := State.asked surge frame
    let e := { farmWords with endDay := 0#16 }
    let c := { farmWords with chainFlag := 1#16 }
    (Taking s frame [] ∧ s.admen = true ∧ s.atOnce = [] ∧ TablesOk s ∧ (∀ n, ¬farmWords.fails n)
        ∧ (∀ n, ¬edgeWords.fails n) ∧ s.feature 0x900 = none ∧ s.features.length < 512
        ∧ 512 ≤ { s with features := everyEntry 512 farm }.features.length
        ∧ farmWords.badOffset s = none ∧ farmWords.endDay = 65535#16 ∧ c.badOffset s = some 16
        ∧ (∀ n, ¬c.fails n) ∧ (∀ n, ¬e.fails n) ∧ e.endDay ≠ 65535#16 ∧ s.siteTime < (e.endDay.toNat + 1) * 86400
        ∧ (e.endDay.toNat + 1) * 86400 ≤ { s with siteTime := 86400 }.siteTime
        ∧ ¬Waited { s with siteTime := 86400 } 0x900)
      ∧ (Taking t frame [] ∧ t.admen = true ∧ t.atOnce = [] ∧ TablesOk t ∧ t.feature 0x900 = some farm
        ∧ farm.state = .active ∧ { farm with state := .retiring }.state = .retiring
        ∧ { farmWords with pool := 4#16 }.pool.toNat ≠ farm.pool ∧ Held t 0x900
        ∧ ¬Held { t with holdings := [] } 0x900 ∧ Waited { t with holdings := [] } 0x900
        ∧ farmWords.pool.toNat = farm.pool ∧ (farmWords.record false).sharing = farm.sharing
        ∧ farmWords.badOffset t = none ∧ (farmWords.record false).endDay = farm.endDay) := by
  refine ⟨⟨⟨rfl, by decide, rfl⟩, rfl, rfl, by constructor <;> decide, farmWords_pass, edgeWords_pass, by decide,
    by decide, ?_, by decide, rfl, by decide, ?_, ?_, by decide, by decide, by decide, ?_⟩,
    ⟨rfl, by decide, rfl⟩, rfl, rfl, by constructor <;> decide, by decide, rfl, rfl, by decide, ⟨0, by decide⟩, ?_,
    ⟨0, by decide⟩, by decide, by decide, by decide, by decide⟩
  · show 512 ≤ (everyEntry 512 farm).length
    simp [everyEntry]
  · simp [FeatureWords.fails, farmWords, value32]
  · simp [FeatureWords.fails, farmWords, value32]
  · rintro ⟨j, h, _⟩
    cases h
  · rintro ⟨i, h, _⟩
    cases h

theorem witness_NewEndDayLowersTheDeadlinesPastIt :
    let p := farmWords.frame 1#16
    let e := { farmWords with endDay := 120#16 }
    let t := State.asked surge (e.frame 1#16)
    (Taking (endingSite p) p [] ∧ (endingSite p).admen = true ∧ (endingSite p).atOnce = [] ∧ TablesOk (endingSite p)
        ∧ (∀ n, ¬farmWords.fails n)
        ∧ (endingSite p).feature 0x900 = some { farm with endDay := some 120, endLodged := true }
        ∧ farmWords.pool.toNat = farm.pool ∧ (farmWords.record false).sharing = farm.sharing
        ∧ farmWords.badOffset (endingSite p) = none ∧ (farmWords.record false).endDay ≠ some 120
        ∧ farmWords.endDay = 65535#16)
      ∧ (Taking t (e.frame 1#16) [] ∧ t.admen = true ∧ t.atOnce = [] ∧ TablesOk t ∧ (∀ n, ¬e.fails n)
        ∧ t.feature 0x900 = some farm ∧ e.badOffset t = none ∧ (e.record false).endDay ≠ farm.endDay
        ∧ e.endDay ≠ 65535#16 ∧ t.siteTime < (e.endDay.toNat + 1) * 86400) := by
  refine ⟨⟨⟨rfl, by decide, rfl⟩, rfl, rfl, by constructor <;> decide, farmWords_pass, by decide, by decide, by decide,
    by decide, by decide, rfl⟩,
    ⟨rfl, by decide, rfl⟩, rfl, rfl, by constructor <;> decide, ?_, by decide, by decide, by decide, by decide,
    by decide⟩
  simp [FeatureWords.fails, farmWords, value32]

/-- The words of the feature 0900h with an end day that section 11.2 has passed. -/
def pastWords : FeatureWords := { farmWords with endDay := 119#16 }

/-- The state of section 11.2 with that Define Feature. -/
def endingAtOnce : State := State.asked surge (pastWords.frame 1#16)

theorem endingAtOnce_held : FeaturesHeld endingAtOnce :=
  every_holding (s := endingAtOnce)
    (P := fun _ h => h.state.counted = true → ∃ f, endingAtOnce.feature h.feature = some f ∧ h.pool = f.pool)
    (fun e he _ => by
      have hl : endingAtOnce.holdings = surge.holdings := rfl
      rw [hl, surge, List.mem_cons, List.mem_cons, List.mem_singleton] at he
      rcases he with rfl | rfl | rfl <;> exact ⟨farm, rfl, rfl⟩)
    fun _ => nofun

theorem endingAtOnce_over : OverOk endingAtOnce := by
  intro p _
  rcases eq_or_ne p 3 with rfl | h
  · decide
  · simp [State.pool, tableGet, tableFind, State.reserveSum, endingAtOnce, surge, State.asked, h.symm, farmSite,
      Pool.initial]

/-- An end day already past, on an ACTIVE feature with holdings and waiters, in an OPEN service and in a CLOSED one. -/
theorem witness_NewEndDayLowersTheDeadlinesPastIt_atOnce :
    let s := endingAtOnce
    Taking s (pastWords.frame 1#16) [] ∧ s.admen = true ∧ s.atOnce = [] ∧ TablesOk s ∧ (∀ n, ¬pastWords.fails n)
      ∧ s.feature 0x900 = some farm ∧ pastWords.badOffset s = none ∧ (pastWords.record false).endDay ≠ farm.endDay
      ∧ pastWords.endDay ≠ 65535#16 ∧ (pastWords.endDay.toNat + 1) * 86400 ≤ s.siteTime ∧ FeaturesHeld s
      ∧ OverOk s ∧ { s with service := .closed }.service = .closed ∧ s.starved = false
      ∧ (s.pool 3).queue = [0, 1] ∧ (∀ j ∈ (s.pool farm.pool).queue, (s.waiter j).feature = 0x900) :=
  ⟨⟨rfl, by decide, rfl⟩, rfl, rfl, by constructor <;> decide,
    by simp [FeatureWords.fails, pastWords, farmWords, value32], by decide, by decide, by decide, by decide, by decide,
    endingAtOnce_held, endingAtOnce_over, rfl, rfl, by decide, by decide⟩

theorem witness_RetireFeatureEndsItsWaiters :
    let s := State.asked surge [0x2903#16, 1#16, 0x900#16]
    Taking s [0x2903#16, 1#16, 0x900#16] [] ∧ s.admen = true ∧ s.atOnce = [] ∧ TablesOk s ∧ (0#16).toNat = 0
      ∧ (1#16).toNat ≠ 0 ∧ s.feature 1 = none ∧ s.feature (0x900#16).toNat = some farm ∧ farm.state = .active
      ∧ Held s 0x900 ∧ ¬Held (farmSite 1) 0x900 ∧ DrainedOrdered s ∧ draining.feature 0xC50 ≠ none := by
  refine ⟨⟨rfl, by decide, rfl⟩, rfl, rfl, by constructor <;> decide, by decide, by decide, by decide, by decide, rfl,
    ⟨0, by decide⟩, ?_, .nil, by decide⟩
  rintro ⟨i, h, _⟩
  cases h

theorem witness_WriteTermsReplacesTheRun :
    let slots : List (Word × Word) := [(0x4000#16, 0#16), (0x8000#16, 5#16)]
    let s := State.asked (farmSite 1) (termsFrame 1#16 2046#16 slots)
    let u := { s with features := [(0x900, { farm with chain := some 2047 })],
                      terms := [(2047, .term .set false true .group 0#16)] }
    Taking s (termsFrame 1#16 2046#16 slots) [] ∧ s.admen = true ∧ TablesOk s ∧ 1 ≤ slots.length
      ∧ (List.replicate 18 (0x4000#16, 0#16)).length ≤ 18 ∧ 2048 < (2047#16).toNat + 2 ∧ (2046#16).toNat + 2 ≤ 2048
      ∧ badlyCoded 0x0000#16 ∧ badlyCoded 0xC000#16 ∧ badlyCoded 0x6000#16 ∧ badlyCoded 0x4008#16
      ∧ (∀ p ∈ slots, ¬badlyCoded p.1) ∧ InUse u 2047 ∧ TablesOk u
      ∧ ∀ k, 2046 ≤ k → k < 2046 + 2 → ¬InUse s k := by
  refine ⟨⟨rfl, by decide, rfl⟩, rfl, by constructor <;> decide, by decide, Nat.le_of_eq List.length_replicate,
    by decide, by decide, by decide, by decide, by decide, by decide, by simp,
    ⟨0x900, _, 2047, rfl, rfl, by decide, by decide⟩, by constructor <;> decide, ?_⟩
  rintro k _ _ ⟨code, f, start, hf, hc, _⟩
  have hm : (code, f) ∈ [(0x900, farm)] := mem_of_tableFind hf
  rw [List.mem_singleton] at hm
  cases hm
  cases hc

theorem witness_DirectoriesAndLevelsAreEdited :
    let u := State.asked (farmSite 1) [0x2C06#16, 1#16, 65535#16, 0#16, 2#16, 3#16]
    let h := State.asked (farmSite 1) [0x2D05#16, 1#16, 65535#16, 15#16, 1#16]
    let n := State.asked (farmSite 1) [0x2E07#16, 1#16, 0x0301#16, 0#16, 0#16, 0#16, 0#16]
    (Taking u [0x2C06#16, 1#16, 65535#16, 0#16, 2#16, 3#16] [] ∧ u.admen = true ∧ (0#16).toNat = 0
        ∧ 2 < (3#16).toNat ∧ 3 < (4#16).toNat ∧ (65535#16).toNat ≠ 0 ∧ (2#16).toNat ≤ 2 ∧ (3#16).toNat ≤ 3
        ∧ u.user 65535 = none ∧ u.users.length < 4096 ∧ u.user 0x355 ≠ none
        ∧ 4096 ≤ { u with users := everyEntry 4096 ⟨0#16, .enabled, 0⟩ }.users.length)
      ∧ (Taking h [0x2D05#16, 1#16, 65535#16, 15#16, 1#16] [] ∧ h.admen = true ∧ 15 < (16#16).toNat
        ∧ (15#16).toNat ≤ 15 ∧ 1 < (2#16).toNat ∧ (1#16).toNat = 1 ∧ tableFind h.hosts 65535 = none
        ∧ h.hosts.length < 1024 ∧ tableFind { h with hosts := [(5, 15)] }.hosts 5 ≠ none
        ∧ 1024 ≤ { h with hosts := everyEntry 1024 0 }.hosts.length)
      ∧ (Taking n [0x2E07#16, 1#16, 0x0301#16, 0#16, 0#16, 0#16, 0#16] [] ∧ n.admen = true
        ∧ 3 < (0x0400#16).toNat / 256 ∧ 1 < (0x0002#16).toNat % 256
        ∧ ¬(3 < (0x0301#16).toNat / 256 ∨ 1 < (0x0301#16).toNat % 256)) := by
  refine ⟨⟨⟨rfl, by decide, rfl⟩, rfl, by decide, by decide, by decide, by decide, by decide, by decide, by decide,
    by decide, by decide, ?_⟩, ⟨⟨rfl, by decide, rfl⟩, rfl, by decide, by decide, by decide, by decide, by decide,
    by decide, by decide, ?_⟩, ⟨rfl, by decide, rfl⟩, rfl, by decide, by decide, by decide⟩
  · show 4096 ≤ (everyEntry 4096 _).length
    simp [everyEntry]
  · show 1024 ≤ (everyEntry 1024 _).length
    simp [everyEntry]

theorem witness_ClearHoldingsKeepsTheTerms :
    let s := State.asked (gapSite .opened) [0x2F02#16, 1#16]
    let t := State.asked { draining with drained := [⟨0xC4F, 8000000⟩] } [0x2F02#16, 1#16]
    let drains := (t.features.filter (fun e => e.2.state == .retiring)).map (fun e => e.1)
    (Taking s [0x2F02#16, 1#16] [] ∧ s.admen = true ∧ s.atOnce = [] ∧ TablesOk s ∧ s.service = .opened)
      ∧ (Taking t [0x2F02#16, 1#16] [] ∧ t.admen = true ∧ t.atOnce = [] ∧ TablesOk t ∧ t.service = .closed
        ∧ DrainedOrdered t ∧ drains = [0xC50] ∧ t.drained.length + drains.length ≤ 512) :=
  ⟨⟨⟨rfl, by decide, rfl⟩, rfl, rfl, by constructor <;> decide, rfl⟩,
    ⟨rfl, by decide, rfl⟩, rfl, rfl, by constructor <;> decide, rfl, by simp [DrainedOrdered, State.asked], by decide,
    by decide⟩

/-! #### Rule chains -/

/-- The state of section 11.1 with a chain of two terms in slots 2046 and 2047: no more than 16 seats, and project 7. -/
def ruled : State :=
  { State.asked (farmWith { farm with chain := some 2046 }) (jobFrame 1#16 0#16 0#16) with
    terms := [(2046, .term .set false false .seats 16#16), (2047, .term .and false true .project 7#16)] }

theorem ruled_before : VerdictAfter ruled (job 1 0) 2046 1 := by
  constructor
  · intro _
    rfl
  · intro _
    exact (by decide : (job 1 0).seats ≤ (16#16).toNat)

theorem ruled_not_after : ¬VerdictAfter ruled (job 1 0) 2046 2 := fun h =>
  absurd (h.2.mpr rfl) (by decide : (job 1 0).project ≠ (7#16).toNat)

theorem ruled_good_zero : GoodSlot ruled 2046 0 :=
  ⟨fun _ ⟨_, _, _, _, h, _⟩ => (by cases h),
    fun _ => ⟨.set, false, false, .seats, 16#16, rfl, ⟨by decide, by decide⟩, fun _ => rfl⟩⟩

theorem ruled_after_hosts {k : Nat} {lo : Word} (hk : k < 2) : ¬AfterHosts ruled 2046 k lo := by
  rintro ⟨m, c, negate, last, rfl, h⟩
  obtain rfl : m = 0 := by omega
  cases h

theorem ruled_wellFormed : WellFormedChain ruled 2046 2 := by
  refine ⟨by decide, by decide, by decide, fun k hk => ?_, .inl ⟨.and, false, .project, 7#16, rfl, nofun⟩,
    fun k hk => ?_⟩
  · obtain rfl | rfl : k = 0 ∨ k = 1 := by omega
    · exact ruled_good_zero
    · exact ⟨fun _ h => absurd h (ruled_after_hosts (by decide)),
        fun _ => ⟨.and, false, true, .project, 7#16, rfl, trivial, nofun⟩⟩
  · obtain rfl : k = 0 := by omega
    rintro (⟨_, _, _, _, h, _⟩ | ⟨_, _, _, _, _, h, _⟩)
    · cases h
    · cases h

theorem ruled_entries : EntriesOk ruled := entries_of_listed nofun nofun

theorem witness_RuleChainGivesTheVerdict :
    TablesOk ruled ∧ EntriesOk ruled ∧ farm.chain = none ∧ ruled.chainFault 2046 = none
      ∧ Taking ruled (jobFrame 1#16 0#16 0#16) [] ∧ asked ruled 0x900#16 0x355#16 5#16 0#16 1#16 0#16 = job 1 0
      ∧ ruled.service = .opened ∧ FieldsPass (job 1 0) ∧ ruled.feature 0x900 = some { farm with chain := some 2046 }
      ∧ Licensed { farm with chain := some 2046 } ruled.siteTime ∧ ¬Barred ruled 0x355 ∧ ruled.chainLength 2046 = 2
      ∧ VerdictAfter ruled (job 1 0) 2046 1 ∧ ¬VerdictAfter ruled (job 1 0) 2046 2
      ∧ TakesFalse ruled (job 1 0) 2046 1 ∧ ∀ m, 1 < m → m < 2 → ¬TakesFalse ruled (job 1 0) 2046 m :=
  ⟨by constructor <;> decide, ruled_entries, rfl, by decide, ⟨rfl, by decide, rfl⟩, by decide, rfl,
    fields_job 1 0 (by decide) (by decide), rfl, ⟨rfl, Nat.zero_le _, nofun⟩,
    notBarred_job { farm with chain := some 2046 } (jobFrame 1#16 0#16 0#16), by decide, ruled_before,
    ruled_not_after, ⟨⟨.and, false, true, .project, 7#16, rfl⟩, ruled_not_after, .inl ruled_before⟩,
    fun m h k => absurd h (by omega)⟩

theorem witness_FormCheckFindsTheFirstBadSlot :
    WellFormedChain ruled 2046 2 ∧ FirstBad { farmSite 1 with terms := [(0, .extension 5#16)] } 0 0
      ∧ FirstBad ruled 2048 0 := by
  refine ⟨ruled_wellFormed, ⟨by decide, nofun, .inr (.inr fun h => ?_)⟩, ⟨by decide, nofun, .inr (.inl (by decide))⟩⟩
  obtain ⟨c, negate, last, p, operand, hs, _⟩ := h.2 (fun _ ⟨_, _, _, _, h, _⟩ => by cases h)
  cases hs

/-! #### What every step keeps -/

/-- The state of section 11.1 with a LIVE holding of a USER feature, and its Renew about to be taken. -/
def renewing : State :=
  { State.asked (joining .live 1) [0x0204#16, 1#16, 4#16, 1#16] with pending := [.renew] }

theorem renewing_listed {P : Nat → Holding → Prop} (h : P 4 (live 0x900 3 0x355 7 1 8 10371000))
    (free : ∀ i, P i Holding.initial) (i : Nat) : P i (renewing.holding i) := by
  refine every_holding (fun e he => ?_) free i
  have hl : renewing.holdings = [(4, live 0x900 3 0x355 7 1 8 10371000)] := rfl
  rw [hl, List.mem_singleton] at he
  subst he
  exact h

theorem renewing_steps : ∃ t, step renewing = .next t := ⟨_, rfl⟩

theorem renewing_link : LinkOk renewing := by constructor <;> decide

theorem renewing_clock : ClockOk renewing := by constructor <;> decide

theorem renewing_tables : TablesOk renewing := by constructor <;> decide

theorem renewing_capacities : CapacitiesOk renewing := by constructor <;> decide

theorem renewing_entries : EntriesOk renewing where
  holding_gen := renewing_listed (P := fun _ h => 1 ≤ h.gen ∧ h.gen ≤ 255) (by decide) (fun _ => by decide)
  waiter_gen := every_waiter (P := fun _ w => 1 ≤ w.gen ∧ w.gen ≤ 255) nofun (fun _ => by decide)
  references := renewing_listed (P := fun _ h => h.refsOk) (Nat.le_refl 1) (fun _ => rfl)
  holdings_fit := renewing_listed (P := fun i h => 8192 ≤ i → h.state = .free) (by decide) (fun _ _ => rfl)
  waiters_fit := every_waiter (P := fun j w => 256 ≤ j → w.state = .free) nofun (fun _ _ => rfl)

theorem renewing_held : FeaturesHeld renewing :=
  renewing_listed (P := fun _ h => h.state.counted = true →
    ∃ f, renewing.feature h.feature = some f ∧ h.pool = f.pool) (fun _ => ⟨shared, rfl, rfl⟩) (fun _ => nofun)

theorem renewing_queues : QueuesOk renewing := queues_empty nofun (by decide)

theorem renewing_books : BooksOk renewing where
  used p := by
    rcases eq_or_ne p 3 with rfl | h
    · decide
    · simp [State.pool, tableGet, tableFind, State.tokensIn, renewing, joining, State.asked, h.symm, live, Pool.initial]
  borrowed p := by
    rcases eq_or_ne p 3 with rfl | h
    · decide
    · simp [State.pool, tableGet, tableFind, State.tokensIn, renewing, joining, State.asked, h.symm, live, Pool.initial]
  lingering p := by
    rcases eq_or_ne p 3 with rfl | h
    · decide
    · simp [State.pool, tableGet, tableFind, State.tokensIn, renewing, joining, State.asked, h.symm, live, Pool.initial]
  allotment := by decide

theorem renewing_over : OverOk renewing := by
  intro p _
  rcases eq_or_ne p 3 with rfl | h
  · decide
  · simp [State.pool, tableGet, tableFind, State.reserveSum, renewing, joining, State.asked, h.symm, farmWith, farmSite,
      Pool.initial]

theorem renewing_keys : KeysOk renewing := by
  have four := renewing_listed (P := fun i h => (h.state = .live ∨ h.state = .lingering) → i = 4) (fun _ => rfl)
    (fun _ => nofun)
  intro i j _ _ _ hi hj _
  rw [four i hi, four j hj]

theorem renewing_timely : TimelyOk renewing := ⟨rfl, by decide⟩

theorem renewing_clamp : ClampOk renewing where
  holdings := renewing_listed (P := fun _ h => h.state.counted = true → h.deadline ≤ 4294967295 ∧
      ∀ f e, renewing.feature h.feature = some f → f.endInstant = some e → h.deadline ≤ e)
    (fun _ => ⟨by decide, fun f e hf he => by
      have hs : renewing.feature 0x900 = some shared := rfl
      have h := hs.symm.trans hf
      cases h
      cases he⟩) (fun _ => nofun)
  waiters := every_waiter (P := fun _ w => w.state = .waiting → w.deadline ≤ 4294967295 ∧
      ∀ f e, renewing.feature w.feature = some f → f.endInstant = some e → w.deadline ≤ e) nofun (fun _ => nofun)

theorem witness_StepsKeepLinkClockAndTables :
    LinkOk renewing ∧ ClockOk renewing ∧ TablesOk renewing ∧ CapacitiesOk renewing ∧ DrainedOrdered renewing
      ∧ ∃ t, step renewing = .next t :=
  ⟨renewing_link, renewing_clock, renewing_tables, renewing_capacities, .nil, renewing_steps⟩

theorem witness_StepsLeaveDeadlinesAheadOrReached :
    TablesOk renewing ∧ TimelyOk renewing ∧ ∃ t, step renewing = .next t :=
  ⟨renewing_tables, renewing_timely, renewing_steps⟩

theorem witness_StepsKeepEntriesAndQueues :
    TablesOk renewing ∧ renewing.atOnce = [] ∧ EntriesOk renewing ∧ FeaturesHeld renewing ∧ QueuesOk renewing
      ∧ ∃ t, step renewing = .next t :=
  ⟨renewing_tables, rfl, renewing_entries, renewing_held, renewing_queues, renewing_steps⟩

theorem witness_StepsKeepTheBooksBalanced :
    TablesOk renewing ∧ renewing.atOnce = [] ∧ EntriesOk renewing ∧ FeaturesHeld renewing ∧ QueuesOk renewing
      ∧ BooksOk renewing ∧ OverOk renewing ∧ ∃ t, step renewing = .next t :=
  ⟨renewing_tables, rfl, renewing_entries, renewing_held, renewing_queues, renewing_books, renewing_over,
    renewing_steps⟩

theorem witness_StepsKeepMergeKeysDistinct :
    TablesOk renewing ∧ renewing.atOnce = [] ∧ EntriesOk renewing ∧ FeaturesHeld renewing ∧ QueuesOk renewing
      ∧ KeysOk renewing ∧ ∃ t, step renewing = .next t :=
  ⟨renewing_tables, rfl, renewing_entries, renewing_held, renewing_queues, renewing_keys, renewing_steps⟩

theorem witness_StepsKeepDeadlinesClamped :
    TablesOk renewing ∧ renewing.atOnce = [] ∧ EntriesOk renewing ∧ FeaturesHeld renewing ∧ QueuesOk renewing
      ∧ ClampOk renewing ∧ ∃ t, step renewing = .next t :=
  ⟨renewing_tables, rfl, renewing_entries, renewing_held, renewing_queues, renewing_clamp, renewing_steps⟩

theorem witness_StepsKeepTheLawOfChains : TablesOk ruled ∧ ChainsOk ruled ∧ ∃ t, step ruled = .next t := by
  refine ⟨by constructor <;> decide, fun code f start hf hc => ?_, ⟨_, rfl⟩⟩
  have hm : (code, f) ∈ [(0x900, { farm with chain := some 2046 })] := mem_of_tableFind hf
  rw [List.mem_singleton] at hm
  cases hm
  cases hc
  decide

theorem witness_SiteTimeNeverFallsWhileAnEntryIsUsed :
    ClockOk renewing ∧ SomeEntryUsed renewing
      ∧ (∀ c rest, renewing.pending = c :: rest → c ≠ .deviceReset ∧ c ≠ .resetRelease)
      ∧ ∃ t, step renewing = .next t := by
  refine ⟨renewing_clock, .inl ⟨4, by decide⟩, fun c rest h => ?_, renewing_steps⟩
  have hp : renewing.pending = .renew :: [] := rfl
  rw [hp] at h
  cases h
  exact ⟨nofun, nofun⟩

/-- The state of section 11.5, CLOSED, with a period of REFCLK about to come. -/
def closedStep : State := { gapSite .closed with pending := [.refclkPeriod] }

theorem witness_NoWaiterIsGrantedWhileClosed :
    closedStep.service = .closed ∧ (closedStep.waiter 3).state = .waiting
      ∧ (∀ rest, closedStep.pending ≠ .openService :: rest) ∧ ∃ t, step closedStep = .next t :=
  ⟨rfl, by decide, nofun, ⟨_, rfl⟩⟩

end Sys2Proof.Tests
end

section
/-! SUPPORT. Query Feature: the counts of a table's entries, the refusals and replies of requests, and the proof of
O32. -/

namespace Sys2Proof.Machine

open Sys2Proof.Claims

/-! ### Tables counted by their numbers -/

theorem mem_filter_numbers {α : Type} {t : Table α} (rising : TableRising t) (d : α) {test : α → Bool}
    (unlisted : test d = false) (i : Nat) :
    i ∈ (t.filter (fun e => test e.2)).map Prod.fst ↔ test (tableGet d t i) = true := by
  have listed : i ∈ (t.filter (fun e => test e.2)).map Prod.fst ↔ ∃ v, tableFind t i = some v ∧ test v = true := by
    simp [← mem_iff_tableFind rising]
  rw [listed, tableGet]
  cases tableFind t i <;> simp [unlisted]

/-- The pairs of a table that pass a test are as many as the numbers whose contents pass it. -/
theorem length_filter_table {α : Type} {t : Table α} (rising : TableRising t) (d : α) {test : α → Bool} {n : Nat}
    (unlisted : test d = false) (fit : ∀ i, n ≤ i → test (tableGet d t i) = false) :
    (t.filter (fun e => test e.2)).length = ((List.range n).filter (fun i => test (tableGet d t i))).length := by
  have distinct : ((t.filter (fun e => test e.2)).map Prod.fst).Nodup :=
    List.pairwise_map.mpr ((List.Pairwise.filter _ rising).imp Nat.ne_of_lt)
  have same : ((t.filter (fun e => test e.2)).map Prod.fst).Perm
      ((List.range n).filter (fun i => test (tableGet d t i))) := by
    rw [List.perm_ext_iff_of_nodup distinct (List.nodup_range.filter _)]
    intro i
    rw [mem_filter_numbers rising d unlisted, List.mem_filter, List.mem_range]
    refine ⟨fun h => ⟨?_, h⟩, And.right⟩
    by_contra high
    simp [fit i (Nat.le_of_not_lt high)] at h
  simpa using same.length_eq

theorem beq_and_beq {α β : Type} [DecidableEq α] [DecidableEq β] (a a' : α) (b b' : β) :
    (a == a' && b == b') = decide (a = a' ∧ b = b') := by
  rw [Bool.decide_and, beq_eq_decide, beq_eq_decide]

/-- The count of a used state over the listed holdings is the count over the 8192 entries (R21). -/
theorem holdingCount_eq {s : State} (tables : TablesOk s) (entries : EntriesOk s) (code : Nat) {st : HoldingState}
    (used : st ≠ .free) : s.holdingCount code st = countHoldings s code st := by
  simp only [State.holdingCount, beq_and_beq]
  exact length_filter_table (test := fun h : Holding => decide (h.state = st ∧ h.feature = code))
    tables.holdings_canonical.1 Holding.initial (decide_eq_false fun h => used h.1.symm)
    fun i hi => decide_eq_false fun h => used (h.1.symm.trans (entries.holdings_fit i hi))

/-- The count over the listed waiters is the count over the 256 entries (R21). -/
theorem waitingCount_eq {s : State} (tables : TablesOk s) (entries : EntriesOk s) (code : Nat) :
    s.waitingCount code = countWaiters s code := by
  simp only [State.waitingCount, beq_and_beq]
  exact length_filter_table (test := fun w : Waiter => decide (w.state = .waiting ∧ w.feature = code))
    tables.waiters_canonical.1 Waiter.initial (decide_eq_false fun h => nomatch h.1)
    fun j hj => decide_eq_false fun h => nomatch h.1.symm.trans (entries.waiters_fit j hj)

/-! ### Requests that pass the decoder, and those it refuses -/

/-- What an owner leaves, and the reply made of its answer behind those in the queue, where the decoder's checks pass
(R166, R167). -/
theorem serveKind_reply {s : State} {w tag : Word} {more : Frame} {rest : List Frame}
    (taking : Taking s (w :: tag :: more) rest) {kind : Byte} (hk : hiByte w = kind)
    (hl : lengthTaken kind.toNat (more.length + 2) = true)
    (hc : clientKind kind.toNat = true ∨ (adminKind kind.toNat = true ∧ s.admen = true))
    {owner : Frame → State → State × Answer} {t : State} {a : Answer}
    (ho : owner (w :: tag :: more) (s.leaving rest) = (t, a)) :
    serveKind kind.toNat owner s = .next (t.placeReply (reply kind tag a.code.byte a.detail a.body)) := by
  subst hk
  exact serveKind_served taking.released taking.place taking.front rfl hl hc ho

/-- An admin request is answered NOT_ADMIN while ADMEN is deasserted (R167). -/
theorem serveKind_notAdmin {s : State} {w tag : Word} {more : Frame} {rest : List Frame}
    (taking : Taking s (w :: tag :: more) rest) {kind : Byte} (hk : hiByte w = kind)
    (hl : lengthTaken kind.toNat (more.length + 2) = true) (admin : adminKind kind.toNat = true)
    (low : s.admen = false) (owner : Frame → State → State × Answer) :
    serveKind kind.toNat owner s = turned s rest kind tag 0x31#8 0 := by
  subst hk
  have code : kindCode (w :: tag :: more) = (hiByte w).toNat := rfl
  have judged : judge owner (w :: tag :: more) (s.leaving rest) = (s.leaving rest, plain .notAdmin 0) := by
    simp [judge, code, admin, hl, low]
  rw [serveKind_taken (takeFrame_some taking.released taking.place taking.front) code, answerFrame, judged]
  rfl

/-! ### Query Feature -/

theorem serveQueryFeature_zero {f : Frame} {s : State} (h : field f 2 = 0) :
    serveQueryFeature f s = (s, badField 2) := by
  simp [serveQueryFeature, h]

theorem serveQueryFeature_unknown {f : Frame} {s : State} (h : field f 2 ≠ 0) (hn : s.feature (field f 2) = none) :
    serveQueryFeature f s = (s, plain .unknownFeature 0) := by
  simp [serveQueryFeature, h, hn]

theorem serveQueryFeature_found {f : Frame} {s : State} {r : Feature} (h : field f 2 ≠ 0)
    (hr : s.feature (field f 2) = some r) :
    serveQueryFeature f s = (s, { code := .ok, detail := 0, body := s.featureBody (field f 2) r }) := by
  simp [serveQueryFeature, h, hr]

/-- The body of Query Feature (R21), its counts taken entry by entry. -/
theorem featureBody_eq {s : State} (tables : TablesOk s) (entries : EntriesOk s) (c : Nat) (f : Feature) :
    s.featureBody c f =
      [if f.state = .active then 1#16 else 2#16, wordOf f.pool, wordOf f.weight, wordOf f.sharing.code,
        wordOf f.startDay, endDayWord f.endDay]
        ++ two f.lease
        ++ [wordOf f.linger, wordOf f.borrowMax, if f.chain = none then 0#16 else 1#16, wordOf (f.chain.getD 0),
          wordOf (countHoldings s c .live), wordOf (countHoldings s c .borrowed),
          wordOf (countHoldings s c .lingering), wordOf (countHoldings s c .lapsed), wordOf (countWaiters s c)] := by
  have state : wordOf f.state.code = if f.state = .active then 1#16 else 2#16 := by cases f.state <;> rfl
  have chainFlag : flagWord f.chain.isSome = if f.chain = none then 0#16 else 1#16 := by cases f.chain <;> rfl
  have chainStart : optWord f.chain = wordOf (f.chain.getD 0) := by cases f.chain <;> rfl
  have counts {st : HoldingState} (used : st ≠ .free) : s.holdingCount c st = countHoldings s c st :=
    holdingCount_eq tables entries c used
  rw [State.featureBody, state, chainFlag, chainStart, counts (by decide), counts (by decide), counts (by decide),
    counts (by decide), waitingCount_eq tables entries]
  rfl

end Sys2Proof.Machine

namespace Sys2Proof.Claims

open Sys2Proof.Machine

/-- Settles O32: the decoder's check of ADMEN and the owner's two checks give the refusals, and the counts that the
model takes over the listed entries are those taken entry by entry. -/
theorem queryFeatureReportsTheRecord : Obligations.QueryFeatureReportsTheRecord := by
  intro s rest tag code taking tables entries c
  have byOwner (a : Answer) (admen : s.admen = true)
      (ho : serveQueryFeature [0x2A03#16, tag, code] (s.leaving rest) = (s.leaving rest, a)) :
      exec .queryFeature s = .next (answered s rest (reply 0x2A#8 tag a.code.byte a.detail a.body)) :=
    serveKind_reply taking (kind := 0x2A#8) (by decide) rfl (.inr ⟨rfl, admen⟩) ho
  refine ⟨fun low => ?_, fun admen zero => ?_, fun admen nonzero unknown => ?_, fun f admen nonzero found => ?_⟩
  · exact serveKind_notAdmin taking (kind := 0x2A#8) (by decide) rfl rfl low _
  · exact byOwner (badField 2) admen (serveQueryFeature_zero zero)
  · exact byOwner (plain .unknownFeature 0) admen (serveQueryFeature_unknown nonzero unknown)
  · have reported : exec .queryFeature s = .next (answered s rest (reply 0x2A#8 tag 0x00#8 0 (s.featureBody c f))) :=
      byOwner ⟨.ok, 0, s.featureBody c f⟩ admen (serveQueryFeature_found nonzero found)
    rw [reported, featureBody_eq tables entries]
    cases f.sharing <;> cases f.endDay <;> rfl

end Sys2Proof.Claims
end

section
/-! SUPPORT. Clear Holdings: what it makes of each table, of the drained list and of the deadlines reached, and the
proof of O48. -/

namespace Sys2Proof.Machine

open Sys2Proof.Claims

/-! ### Tables changed or cut down as a whole -/

theorem tableFind_of_below {α : Type} {t : Table α} {i : Nat} (h : ∀ e ∈ t, i < e.1) : tableFind t i = none := by
  cases found : tableFind t i with
  | none => rfl
  | some v => exact absurd (h _ (mem_of_tableFind found)) (Nat.lt_irrefl _)

theorem tableGet_map {α : Type} [DecidableEq α] {d : α} {g : α → α} (fixed : g d = d) {t : Table α}
    (rising : TableRising t) (i : Nat) : tableGet d (tableMap d t g) i = g (tableGet d t i) := by
  induction t with
  | nil => exact fixed.symm
  | cons e t ih =>
    obtain ⟨j, w⟩ := e
    obtain ⟨above, rising⟩ := List.pairwise_cons.mp rising
    have ih := ih rising
    simp only [tableGet, tableMap] at ih ⊢
    rcases eq_or_ne j i with rfl | other
    · rw [tableFind_of_below above] at ih
      by_cases gone : g w = d <;> simp_all [tableFind]
    · by_cases gone : g w = d <;> simp_all [tableFind]

theorem tableFind_filter {α : Type} (t : Table α) (keep : Nat → Bool) (i : Nat) :
    tableFind (t.filter (fun e => keep e.1)) i = if keep i then tableFind t i else none := by
  induction t with
  | nil => simp
  | cons e t ih =>
    obtain ⟨j, w⟩ := e
    by_cases same : j = i <;> by_cases kept : keep j = true <;> simp_all [tableFind]

/-! ### The over states recomputed -/

/-- The model's over state is the one of the statements (R47, R48). -/
theorem recomputed_eq_withOver (q : Pool) (reserves evt : Nat) :
    q.recomputed reserves evt = withOver q reserves evt := by
  simp [Pool.recomputed, withOver, Bool.decide_or, and_assoc]

theorem pool_recomputeOver (s : State) (pool evt p : Nat) :
    (s.recomputeOver pool evt).pool p =
      if p = pool then (s.pool pool).recomputed (s.reserveSum pool) evt else s.pool p := pool_setPool ..

/-- Pools recomputed one after another, each once: those named are recomputed, and no other (R47). -/
theorem pool_foldl_recomputeOver {l : List Nat} (once : l.Nodup) (s : State) (evt p : Nat) :
    (l.foldl (fun acc q => acc.recomputeOver q evt) s).pool p =
      if p ∈ l then (s.pool p).recomputed (s.reserveSum p) evt else s.pool p := by
  induction l generalizing s with
  | nil => simp
  | cons q l ih =>
    obtain ⟨fresh, once⟩ := List.nodup_cons.mp once
    rw [List.foldl_cons, ih once, pool_recomputeOver, reserveSum_recomputeOver]
    rcases eq_or_ne p q with rfl | other
    · simp [fresh]
    · simp [other]

theorem pool_recomputeAll (s : State) (evt : Nat) {p : Nat} (h : p < 64) :
    (s.recomputeAll evt).pool p = (s.pool p).recomputed (s.reserveSum p) evt := by
  rw [State.recomputeAll, pool_foldl_recomputeOver List.nodup_range, if_pos (List.mem_range.mpr h)]

/-- The state without its pools: the part that no over state touches. -/
def State.unpooled (s : State) : State := { s with pools := [] }

theorem unpooled_recomputeAll (s : State) (evt : Nat) : (s.recomputeAll evt).unpooled = s.unpooled :=
  foldl_keeps State.unpooled (fun acc p => acc.recomputeOver p evt) (fun _ _ => rfl) _ _

theorem eq_of_unpooled {s t : State} (h : t.unpooled = s.unpooled) : t = { s with pools := t.pools } :=
  congrArg (fun u : State => { u with pools := t.pools }) h

/-! ### RETIRING features drained one after another -/

/-- The codes of the RETIRING features, in ascending order. -/
def State.retiringCodes (s : State) : List Nat :=
  (s.features.filter (fun e => e.2.state == .retiring)).map (fun e => e.1)

/-- The features of some codes drain, one after another (R20). -/
def State.drainEach (s : State) (codes : List Nat) (evt : Nat) : State :=
  codes.foldl (fun acc c => acc.drain c evt) s

theorem drainAll_eq (s : State) (evt : Nat) : s.drainAll evt = s.drainEach s.retiringCodes evt := by
  simp [State.drainAll, State.drainEach, State.retiringCodes, List.foldl_map, List.foldl_filter]

theorem drainEach_cons (s : State) (c : Nat) (codes : List Nat) (evt : Nat) :
    s.drainEach (c :: codes) evt = (s.drain c evt).drainEach codes evt := rfl

theorem mem_retiringCodes {s : State} (rising : TableRising s.features) (c : Nat) :
    c ∈ s.retiringCodes ↔ ∃ f, s.feature c = some f ∧ f.state = .retiring := by
  simp [State.retiringCodes, State.feature, ← mem_iff_tableFind rising]

/-- The state without what draining touches: the features, the drained list and the deadlines. -/
def State.undrained (s : State) : State := { s with features := [], drained := [], reached := [], atOnce := [] }

theorem undrained_drainEach (s : State) (codes : List Nat) (evt : Nat) :
    (s.drainEach codes evt).undrained = s.undrained :=
  foldl_keeps State.undrained (fun acc c => acc.drain c evt) (fun _ _ => rfl) _ _

theorem eq_of_undrained {s t : State} (h : t.undrained = s.undrained) :
    t = { s with features := t.features, drained := t.drained, reached := t.reached, atOnce := t.atOnce } :=
  congrArg
    (fun u : State =>
      { u with features := t.features, drained := t.drained, reached := t.reached, atOnce := t.atOnce }) h

theorem features_drainEach (s : State) (codes : List Nat) (evt : Nat) :
    (s.drainEach codes evt).features = s.features.filter (fun e => !codes.contains e.1) := by
  induction codes generalizing s with
  | nil => simp [State.drainEach]
  | cons c codes ih =>
    have erased : (s.drain c evt).features = s.features.filter (fun e => e.1 != c) := rfl
    rw [drainEach_cons, ih, erased, List.filter_filter]
    refine List.filter_congr fun e _ => ?_
    simp [Bool.and_comm, bne, beq_eq_decide]

theorem reached_drainEach (s : State) (codes : List Nat) (evt : Nat) :
    (s.drainEach codes evt).reached =
      s.reached.filter (fun d => !(d.kind == .featureEnd && codes.contains d.record)) := by
  induction codes generalizing s with
  | nil => simp [State.drainEach]
  | cons c codes ih =>
    have withdrawn : (s.drain c evt).reached = s.reached.filter (fun d => !d.ofFeature c) := rfl
    rw [drainEach_cons, ih, withdrawn, List.filter_filter]
    refine List.filter_congr fun d _ => ?_
    cases of : d.kind == .featureEnd <;> simp [Deadline.ofFeature, of, Bool.and_comm, beq_eq_decide]

theorem atOnce_drainEach {s : State} (h : s.atOnce = []) (codes : List Nat) (evt : Nat) :
    (s.drainEach codes evt).atOnce = [] := by
  induction codes generalizing s with
  | nil => exact h
  | cons c codes ih => exact ih (withdraw_atOnce_nil h _)

/-! ### The drained list as records join it -/

theorem mem_addDrained {s : State} {d x : Drained} (h : x ∈ (s.addDrained d).drained) : x = d ∨ x ∈ s.drained := by
  refine ((mem_insertDrained ..).mp h).imp_right fun kept => ?_
  split at kept
  · exact List.mem_of_mem_tail kept
  · exact kept

theorem mem_addDrained_room {s : State} (room : s.drained.length < 512) (d x : Drained) :
    x ∈ (s.addDrained d).drained ↔ x = d ∨ x ∈ s.drained := by
  rw [State.addDrained, mem_insertDrained, if_neg (Nat.not_le.mpr room)]

theorem length_addDrained_room {s : State} (room : s.drained.length < 512) (d : Drained) :
    (s.addDrained d).drained.length = s.drained.length + 1 := by
  rw [State.addDrained, length_insertDrained, if_neg (Nat.not_le.mpr room)]

/-- Where the list stands in order, a record joins it as the statements say (R20). -/
theorem addDrained_eq_listedWith {s : State} (ordered : DrainedOrdered s) (d : Drained) :
    (s.addDrained d).drained = listedWith s.drained d := by
  have kept : (if Config.drainedRecords ≤ s.drained.length then s.drained.tail else s.drained).Pairwise
      (fun a b => a.eventTime < b.eventTime ∨ (a.eventTime = b.eventTime ∧ a.feature ≤ b.feature)) := by
    split
    · exact ordered.sublist (List.tail_sublist _)
    · exact ordered
  obtain ⟨front, back⟩ := split_ordered d kept
  rw [State.addDrained, insertDrained, front, back]
  rfl

theorem mem_drained_drainEach {s : State} {codes : List Nat} {evt : Nat} {d : Drained}
    (h : d ∈ (s.drainEach codes evt).drained) : d ∈ s.drained ∨ (d.eventTime = evt ∧ d.feature ∈ codes) := by
  induction codes generalizing s with
  | nil => exact .inl h
  | cons c codes ih =>
    rcases ih h with before | ⟨time, code⟩
    · rcases mem_addDrained before with rfl | before
      · exact .inr ⟨rfl, List.mem_cons_self⟩
      · exact .inl before
    · exact .inr ⟨time, List.mem_cons_of_mem _ code⟩

/-- While the list stays within its 512 no record is lost (R20). -/
theorem mem_drained_drainEach_room {s : State} {codes : List Nat} {evt : Nat}
    (room : s.drained.length + codes.length ≤ 512) (d : Drained) :
    d ∈ (s.drainEach codes evt).drained ↔ d ∈ s.drained ∨ ∃ c ∈ codes, d = { feature := c, eventTime := evt } := by
  induction codes generalizing s with
  | nil => simp [State.drainEach]
  | cons c codes ih =>
    rw [List.length_cons] at room
    have free : s.drained.length < 512 := by omega
    have longer : (s.drain c evt).drained.length = s.drained.length + 1 :=
      length_addDrained_room (s := s.removeFeature c) free _
    have joined : d ∈ (s.drain c evt).drained ↔ d = { feature := c, eventTime := evt } ∨ d ∈ s.drained :=
      mem_addDrained_room (s := s.removeFeature c) free _ _
    rw [drainEach_cons, ih (by omega), joined, List.exists_mem_cons_iff]
    tauto

theorem drained_drainEach {s : State} (ordered : DrainedOrdered s) (codes : List Nat) (evt : Nat) :
    (s.drainEach codes evt).drained =
      codes.foldl (fun l c => listedWith l { feature := c, eventTime := evt }) s.drained := by
  induction codes generalizing s with
  | nil => rfl
  | cons c codes ih =>
    have joined : (s.drain c evt).drained = listedWith s.drained { feature := c, eventTime := evt } :=
      addDrained_eq_listedWith (s := s.removeFeature c) ordered _
    rw [drainEach_cons, List.foldl_cons, ← joined]
    exact ih (addDrained_ordered (s := s.removeFeature c) ordered _)

/-! ### Clear Holdings -/

/-- The state with its collections emptied and its over states recomputed, before the RETIRING features drain (R24).
Irreducible, as is `State.clearedOut`: a unification that unfolds it would run the fold over the 64 pools. -/
@[irreducible] def State.emptiedOut (s : State) : State := s.emptied.recomputeAll s.siteTime

/-- What Clear Holdings makes of the state while the service is CLOSED (R24). -/
@[irreducible] def State.clearedOut (s : State) : State := s.emptiedOut.drainEach s.retiringCodes s.siteTime

/-- A state with the seven collections that Clear Holdings changes as they stand in another. -/
def State.restored (t s : State) : State :=
  { t with
    holdings := s.holdings
    waiters := s.waiters
    pools := s.pools
    allotments := s.allotments
    features := s.features
    drained := s.drained
    reached := s.reached }

section EmptiedOut

variable (s : State)

theorem emptiedOut_eq : s.emptiedOut = { s.emptied with pools := s.emptiedOut.pools } :=
  eq_of_unpooled (by rw [State.emptiedOut, unpooled_recomputeAll])

theorem emptiedOut_holdings : s.emptiedOut.holdings = tableMap Holding.initial s.holdings Holding.cleared :=
  (congrArg State.holdings (emptiedOut_eq s) :)

theorem emptiedOut_waiters : s.emptiedOut.waiters = tableMap Waiter.initial s.waiters Waiter.cleared :=
  (congrArg State.waiters (emptiedOut_eq s) :)

theorem emptiedOut_allotments : s.emptiedOut.allotments = s.allotments.map (fun a => { a with used := 0 }) :=
  (congrArg State.allotments (emptiedOut_eq s) :)

theorem emptiedOut_features : s.emptiedOut.features = s.features := (congrArg State.features (emptiedOut_eq s) :)

theorem emptiedOut_drained : s.emptiedOut.drained = s.drained := (congrArg State.drained (emptiedOut_eq s) :)

theorem emptiedOut_reached : s.emptiedOut.reached = s.reached.filter (fun d => d.kind == .featureEnd) :=
  (congrArg State.reached (emptiedOut_eq s) :)

theorem emptiedOut_atOnce : s.emptiedOut.atOnce = s.atOnce.filter (fun d => d.kind == .featureEnd) :=
  (congrArg State.atOnce (emptiedOut_eq s) :)

theorem reserveSum_emptied (p : Nat) : s.emptied.reserveSum p = s.reserveSum p := by
  simp [State.reserveSum, State.emptied, List.filter_map, Function.comp_def]

theorem pool_emptied (canonical : TableCanonical Pool.initial s.pools) (p : Nat) :
    s.emptied.pool p = (s.pool p).cleared :=
  tableGet_map rfl canonical.1 p

end EmptiedOut

theorem serveClearHoldings_opened {s : State} (h : s.service = .opened) (f : Frame) :
    serveClearHoldings f s = (s, plain .inUse 5) := by
  simp [serveClearHoldings, h]

theorem serveClearHoldings_closed {s : State} (h : s.service = .closed) (f : Frame) :
    serveClearHoldings f s = (s.clearedOut, okay 0) := by
  have codes : s.emptiedOut.retiringCodes = s.retiringCodes := by
    rw [State.retiringCodes, emptiedOut_features, State.retiringCodes]
  rw [State.clearedOut, ← codes, ← drainAll_eq]
  simp [serveClearHoldings, h, State.emptiedOut]

section ClearedOut

variable (s : State)

theorem clearedOut_eq :
    s.clearedOut =
      { s.emptiedOut with
        features := s.clearedOut.features
        drained := s.clearedOut.drained
        reached := s.clearedOut.reached
        atOnce := s.clearedOut.atOnce } :=
  eq_of_undrained (by rw [State.clearedOut, undrained_drainEach])

theorem clearedOut_holding (canonical : TableCanonical Holding.initial s.holdings) (i : Nat) :
    s.clearedOut.holding i = (s.holding i).cleared := by
  have holdings : s.clearedOut.holdings = s.emptiedOut.holdings := (congrArg State.holdings (clearedOut_eq s) :)
  rw [State.holding, holdings, emptiedOut_holdings, tableGet_map rfl canonical.1, State.holding]

theorem clearedOut_waiter (canonical : TableCanonical Waiter.initial s.waiters) (j : Nat) :
    s.clearedOut.waiter j = (s.waiter j).cleared := by
  have waiters : s.clearedOut.waiters = s.emptiedOut.waiters := (congrArg State.waiters (clearedOut_eq s) :)
  rw [State.waiter, waiters, emptiedOut_waiters, tableGet_map rfl canonical.1, State.waiter]

theorem clearedOut_pool (canonical : TableCanonical Pool.initial s.pools) {p : Nat} (h : p < 64) :
    s.clearedOut.pool p = withOver (s.pool p).cleared (s.reserveSum p) s.siteTime := by
  have pools : s.clearedOut.pools = s.emptiedOut.pools := (congrArg State.pools (clearedOut_eq s) :)
  have recomputed := pool_recomputeAll s.emptied s.siteTime h
  rw [reserveSum_emptied, pool_emptied s canonical, recomputed_eq_withOver] at recomputed
  rw [State.pool, pools, State.emptiedOut]
  exact recomputed

theorem clearedOut_allotments : s.clearedOut.allotments = s.allotments.map (fun a => { a with used := 0 }) :=
  (congrArg State.allotments (clearedOut_eq s) :).trans (emptiedOut_allotments s)

/-- The RETIRING features are gone and the ACTIVE ones stay. -/
theorem clearedOut_feature (rising : TableRising s.features) (c : Nat) :
    s.clearedOut.feature c = (s.feature c).filter (fun f => decide (f.state = .active)) := by
  have retiring := mem_retiringCodes rising c
  rw [State.feature, State.clearedOut, features_drainEach, emptiedOut_features,
    tableFind_filter _ (fun k => !s.retiringCodes.contains k)]
  change (if _ then s.feature c else none) = _
  cases found : s.feature c with
  | none => simp
  | some f => cases state : f.state <;> simp_all [Option.filter]

/-- Of the reached deadlines the end instants of features that are not RETIRING stay (R131). -/
theorem clearedOut_reached (rising : TableRising s.features) :
    s.clearedOut.reached =
      s.reached.filter (fun d => d.kind == .featureEnd && (s.feature d.record).all (fun f => f.state == .active)) := by
  rw [State.clearedOut, reached_drainEach, emptiedOut_reached, List.filter_filter]
  refine List.filter_congr fun d _ => ?_
  have retiring := mem_retiringCodes rising d.record
  cases found : s.feature d.record with
  | none => cases d.kind == .featureEnd <;> simp_all
  | some f => cases state : f.state <;> cases d.kind == .featureEnd <;> simp_all

theorem clearedOut_atOnce (h : s.atOnce = []) : s.clearedOut.atOnce = [] := by
  rw [State.clearedOut]
  exact atOnce_drainEach (by rw [emptiedOut_atOnce, h, List.filter_nil]) _ _

/-- Every record of the drained list was there before, or is a drained feature's of the present site time. -/
theorem clearedOut_drained_mem (d : Drained) (h : d ∈ s.clearedOut.drained) :
    d ∈ s.drained ∨ (d.eventTime = s.siteTime ∧ d.feature ∈ s.retiringCodes) := by
  rw [State.clearedOut] at h
  rw [← emptiedOut_drained]
  exact mem_drained_drainEach h

theorem clearedOut_drained_room (room : s.drained.length + s.retiringCodes.length ≤ 512) :
    (∀ d ∈ s.drained, d ∈ s.clearedOut.drained)
      ∧ ∀ c ∈ s.retiringCodes, { feature := c, eventTime := s.siteTime } ∈ s.clearedOut.drained := by
  rw [← emptiedOut_drained] at room ⊢
  have joined := mem_drained_drainEach_room (evt := s.siteTime) room
  rw [State.clearedOut]
  exact ⟨fun d h => (joined d).mpr (.inl h), fun c h => (joined _).mpr (.inr ⟨c, h, rfl⟩)⟩

theorem clearedOut_drained_ordered (ordered : DrainedOrdered s) :
    s.clearedOut.drained =
      s.retiringCodes.foldl (fun l c => listedWith l { feature := c, eventTime := s.siteTime }) s.drained := by
  rw [DrainedOrdered, ← emptiedOut_drained] at ordered
  rw [State.clearedOut, drained_drainEach ordered, emptiedOut_drained]

/-- Clear Holdings changes no more than the seven collections and the entry-starved mark. -/
theorem clearedOut_restored (h : s.atOnce = []) : s.clearedOut.restored s = { s with starved := false } :=
  calc s.clearedOut.restored s = { s.emptiedOut.restored s with atOnce := s.clearedOut.atOnce } :=
        congrArg (fun u => u.restored s) (clearedOut_eq s)
    _ = { s with starved := false, atOnce := s.clearedOut.atOnce } :=
        congrArg (fun u => { u.restored s with atOnce := s.clearedOut.atOnce }) (emptiedOut_eq s)
    _ = { s with starved := false } := by rw [clearedOut_atOnce s h, ← h]

end ClearedOut

end Sys2Proof.Machine

namespace Sys2Proof.Claims

open Sys2Proof.Machine

/-- Settles O48: while the service is CLOSED the state that Clear Holdings leaves is `State.clearedOut`, and each clause
is what it holds in one collection; the state it starts from has the taken frame removed, which touches none of them. -/
theorem clearHoldingsKeepsTheTerms : Obligations.ClearHoldingsKeepsTheTerms := by
  intro s rest tag taking admen settled tables drains
  let u := s.leaving rest
  have byOwner (t : State) (a : Answer)
      (ho : serveClearHoldings [0x2F02#16, tag] u = (t, a)) :
      exec .clearHoldings s = .next (t.placeReply (reply 0x2F#8 tag a.code.byte a.detail a.body)) :=
    serveKind_reply taking (kind := 0x2F#8) (by decide) rfl (.inr ⟨rfl, admen⟩) ho
  refine ⟨fun opened => byOwner u (plain .inUse 5) (serveClearHoldings_opened (s := u) opened _), fun closed => ?_⟩
  refine ⟨_, byOwner u.clearedOut (okay 0) (serveClearHoldings_closed (s := u) closed _),
    clearedOut_holding u tables.holdings_canonical, clearedOut_waiter u tables.waiters_canonical,
    fun p => clearedOut_pool u tables.pools_canonical, clearedOut_allotments u,
    clearedOut_feature u tables.features_rising, clearedOut_drained_room u, clearedOut_drained_mem u,
    clearedOut_drained_ordered u, clearedOut_reached u tables.features_rising, ?_⟩
  exact congrArg (fun t => t.placeReply (reply 0x2F#8 tag 0x00#8 0 [])) (clearedOut_restored u settled)

end Sys2Proof.Claims
end

section
/-! SUPPORT. Rule chains: what each slot of a chain requires of the next, the form check and the length of a chain as
walks over such slots, and the proof of O50. -/

namespace Sys2Proof.Machine

open Sys2Proof.Claims

/-! ### Words in bytes -/

theorem hiByte_toNat (w : Word) : (hiByte w).toNat = w.toNat / 256 := by
  have bound := w.isLt
  simp only [hiByte, BitVec.extractLsb'_toNat, Nat.shiftRight_eq_div_pow]
  omega

theorem loByte_toNat (w : Word) : (loByte w).toNat = w.toNat % 256 := by
  simp [loByte]

theorem accepts_iff (p : Predicate) (operand : Word) : p.accepts operand = true ↔ InRange p operand := by
  cases p <;> simp [Predicate.accepts, InRange, hiByte_toNat, loByte_toNat]

/-! ### What the slots before an offset require of the slot there -/

/-- What a walk from a chain start carries to an offset: no HOSTS term stands just before it, or one does, marked last
or not, and with its lo. -/
def ChainAwaits (s : State) (start k : Nat) : Option (Bool × Word) → Prop
  | none => ∀ lo, ¬AfterHosts s start k lo
  | some (last, lo) => ∃ m c negate, k = m + 1 ∧ s.slot (start + m) = .term c negate last .hosts lo

/-- A good slot at an offset to which a walk carries the first index: whether it ends its chain, and what the walk
carries on from there. -/
inductive ChainStands (s : State) (start k : Nat) : Option (Bool × Word) → Bool → Option (Bool × Word) → Prop
  | term (c : Combine) (negate last : Bool) (p : Predicate) (operand : Word) (other : p ≠ .hosts)
      (here : s.slot (start + k) = .term c negate last p operand) (range : InRange p operand)
      (first : k = 0 → c = .set) : ChainStands s start k none last none
  | hosts (c : Combine) (negate last : Bool) (lo : Word) (here : s.slot (start + k) = .term c negate last .hosts lo)
      (first : k = 0 → c = .set) : ChainStands s start k none false (some (last, lo))
  | extension (last : Bool) (lo hi : Word) (here : s.slot (start + k) = .extension hi)
      (ordered : lo.toNat ≤ hi.toNat) : ChainStands s start k (some (last, lo)) last none

theorem chainAwaits_zero (s : State) (start : Nat) : ChainAwaits s start 0 none := nofun

section Slots

variable {s : State} {start k : Nat} {need after : Option (Bool × Word)} {ends : Bool}

theorem chainAwaits_none_of_not_hosts
    (other : ∀ c negate last lo, s.slot (start + k) ≠ .term c negate last .hosts lo) :
    ChainAwaits s start (k + 1) none := by
  rintro lo ⟨m, c, negate, last, next, before⟩
  obtain rfl : k = m := by omega
  exact other c negate last lo before

theorem ChainStands.awaits (stands : ChainStands s start k need ends after) : ChainAwaits s start (k + 1) after := by
  cases stands with
  | term c negate last p operand other here =>
    refine chainAwaits_none_of_not_hosts fun _ _ _ _ found => other ?_
    exact (Slot.term.inj (here.symm.trans found)).2.2.2.1
  | hosts c negate last lo here => exact ⟨k, c, negate, rfl, here⟩
  | extension last lo hi here =>
    exact chainAwaits_none_of_not_hosts fun _ _ _ _ found => nomatch here.symm.trans found

/-- Where no HOSTS term stands before, the good slots are the terms with their operand in range (R38, R39). -/
theorem goodSlot_term_iff (free : ChainAwaits s start k none) :
    GoodSlot s start k ↔ ∃ c negate last p operand, s.slot (start + k) = .term c negate last p operand
      ∧ InRange p operand ∧ (k = 0 → c = .set) :=
  ⟨fun good => good.2 free, fun term => ⟨fun lo behind => absurd behind (free lo), fun _ => term⟩⟩

/-- Just after a HOSTS term the good slots are the extensions not below its lo (R38, R39). -/
theorem goodSlot_extension_iff {last : Bool} {lo : Word} (bound : ChainAwaits s start k (some (last, lo))) :
    GoodSlot s start k ↔ ∃ hi, s.slot (start + k) = .extension hi ∧ lo.toNat ≤ hi.toNat := by
  obtain ⟨m, c, negate, rfl, before⟩ := bound
  have behind : AfterHosts s start (m + 1) lo := ⟨m, c, negate, last, rfl, before⟩
  refine ⟨fun good => good.1 lo behind, fun extension => ⟨?_, fun free => absurd behind (free lo)⟩⟩
  rintro lo' ⟨m', c', negate', last', next, before'⟩
  obtain rfl : m = m' := by omega
  obtain ⟨-, -, -, -, rfl⟩ := Slot.term.inj (before.symm.trans before')
  exact extension

theorem goodSlot_iff_stands (awaits : ChainAwaits s start k need) :
    GoodSlot s start k ↔ ∃ ends after, ChainStands s start k need ends after := by
  rcases need with _ | ⟨last, lo⟩
  · rw [goodSlot_term_iff awaits]
    constructor
    · rintro ⟨c, negate, last, p, operand, here, range, first⟩
      by_cases hosts : p = .hosts
      · subst hosts
        exact ⟨_, _, .hosts c negate last operand here first⟩
      · exact ⟨_, _, .term c negate last p operand hosts here range first⟩
    · rintro ⟨ends, after, stands⟩
      cases stands with
      | term c negate _ p operand other here range first => exact ⟨c, negate, ends, p, operand, here, range, first⟩
      | hosts c negate last lo here first => exact ⟨c, negate, last, .hosts, lo, here, trivial, first⟩
  · rw [goodSlot_extension_iff awaits]
    constructor
    · rintro ⟨hi, here, ordered⟩
      exact ⟨_, _, .extension last lo hi here ordered⟩
    · rintro ⟨ends, after, stands⟩
      cases stands with
      | extension _ _ hi here ordered => exact ⟨hi, here, ordered⟩

/-- A term ends its chain exactly where it is marked last and is no HOSTS term (R27). -/
theorem endsAt_term_iff {c : Combine} {negate last : Bool} {p : Predicate} {operand : Word}
    (here : s.slot (start + k) = .term c negate last p operand) :
    EndsAt s start k ↔ last = true ∧ p ≠ .hosts := by
  constructor
  · rintro (⟨c', negate', p', operand', found, other⟩ | ⟨m, c', negate', lo, hi, -, -, found⟩)
    · obtain ⟨-, -, rfl, rfl, -⟩ := Slot.term.inj (here.symm.trans found)
      exact ⟨rfl, other⟩
    · cases here.symm.trans found
  · rintro ⟨rfl, other⟩
    exact .inl ⟨c, negate, p, operand, here, other⟩

/-- The extension of a HOSTS term ends its chain exactly where that term is marked last (R27). -/
theorem endsAt_extension_iff {last : Bool} {lo hi : Word} (bound : ChainAwaits s start k (some (last, lo)))
    (here : s.slot (start + k) = .extension hi) : EndsAt s start k ↔ last = true := by
  obtain ⟨m, c, negate, rfl, before⟩ := bound
  constructor
  · rintro (⟨c', negate', p', operand', found, -⟩ | ⟨m', c', negate', lo', hi', next, before', -⟩)
    · cases here.symm.trans found
    · obtain rfl : m = m' := by omega
      exact (Slot.term.inj (before.symm.trans before')).2.2.1
  · rintro rfl
    exact .inr ⟨m, c, negate, lo, hi, rfl, before, here⟩

theorem ChainStands.endsAt_iff (stands : ChainStands s start k need ends after) (awaits : ChainAwaits s start k need) :
    EndsAt s start k ↔ ends = true := by
  cases stands with
  | term c negate last p operand other here => simp [endsAt_term_iff here, other]
  | hosts c negate last lo here => simp [endsAt_term_iff here]
  | extension last lo hi here => exact endsAt_extension_iff awaits here

/-! ### The two walks, one slot at a time -/

theorem formWalk_past (n : Nat) (past : 2048 ≤ start + k) : formWalk s start n k need = some k := by
  cases n with
  | zero => rfl
  | succ n => simp [formWalk, past]

theorem formWalk_stands (n : Nat) (inside : start + k < 2048) (stands : ChainStands s start k need ends after) :
    formWalk s start (n + 1) k need = if ends then none else formWalk s start n (k + 1) after := by
  cases stands with
  | term c negate last p operand other here range first =>
    have combine : ¬(k = 0 ∧ c ≠ .set) := fun ⟨zero, bad⟩ => bad (first zero)
    simp [formWalk, Nat.not_le.mpr inside, here, combine, (accepts_iff p operand).mpr range, other]
  | hosts c negate last lo here first =>
    have combine : ¬(k = 0 ∧ c ≠ .set) := fun ⟨zero, bad⟩ => bad (first zero)
    simp [formWalk, Nat.not_le.mpr inside, here, combine, (accepts_iff .hosts lo).mpr trivial]
  | extension last lo hi here ordered =>
    simp [formWalk, Nat.not_le.mpr inside, here, Nat.not_lt.mpr ordered]

theorem formWalk_bad (n : Nat) (awaits : ChainAwaits s start k need) (bad : ¬GoodSlot s start k) :
    formWalk s start n k need = some k := by
  cases n with
  | zero => rfl
  | succ n =>
    rcases need with _ | ⟨last, lo⟩
    · rw [goodSlot_term_iff awaits] at bad
      cases here : s.slot (start + k) with
      | extension hi => simp [formWalk, here]
      | term c negate last p operand =>
        by_cases combine : k = 0 ∧ c ≠ .set
        · simp only [formWalk, here, if_pos combine, ite_self]
        · have first (zero : k = 0) : c = .set := not_not.mp fun other => combine ⟨zero, other⟩
          have refused : p.accepts operand = false := Bool.eq_false_iff.mpr fun accepted =>
            bad ⟨c, negate, last, p, operand, here, (accepts_iff p operand).mp accepted, first⟩
          simp [formWalk, here, combine, refused]
    · rw [goodSlot_extension_iff awaits] at bad
      cases here : s.slot (start + k) with
      | term c negate last' p operand => simp [formWalk, here]
      | extension hi =>
        have below : hi.toNat < lo.toNat := Nat.lt_of_not_le fun ordered => bad ⟨hi, here, ordered⟩
        simp [formWalk, here, below]

theorem chainExtent_stands (n : Nat) (stands : ChainStands s start k need ends after) :
    chainExtent s start (n + 1) k (need.map Prod.fst) =
      if ends then k + 1 else chainExtent s start n (k + 1) (after.map Prod.fst) := by
  cases stands with
  | term c negate last p operand other here => simp [chainExtent, here, other]
  | hosts c negate last lo here => simp [chainExtent, here]
  | extension last lo hi here => simp [chainExtent]

/-! ### What the walks find -/

/-- What the answer of the form check says of the chain at a start (R38). -/
def FormFound (s : State) (start : Nat) : Option Nat → Prop
  | none => ∃ n, WellFormedChain s start n
  | some d => FirstBad s start d

/-- A walk for form that has passed only good slots, none of which ends the chain, finds what the form check is to
find. -/
theorem formWalk_found (n : Nat) : ∀ {k : Nat} {need : Option (Bool × Word)}, k + n = 16 →
    ChainAwaits s start k need → (∀ m, m < k → start + m < 2048 ∧ GoodSlot s start m ∧ ¬EndsAt s start m) →
    FormFound s start (formWalk s start n k need) := by
  induction n with
  | zero => exact fun left _ passed => ⟨Nat.le_of_eq left, passed, .inl left⟩
  | succ n ih =>
    intro k need left awaits passed
    by_cases inside : start + k < 2048
    swap
    · rw [formWalk_past _ (Nat.le_of_not_lt inside)]
      exact ⟨by omega, passed, .inr (.inl (Nat.le_of_not_lt inside))⟩
    by_cases good : GoodSlot s start k
    swap
    · rw [formWalk_bad _ awaits good]
      exact ⟨by omega, passed, .inr (.inr good)⟩
    obtain ⟨ends, after, stands⟩ := (goodSlot_iff_stands awaits).mp good
    have ending := stands.endsAt_iff awaits
    rw [formWalk_stands n inside stands]
    cases ends with
    | true =>
      refine ⟨k + 1, by omega, by omega, by omega, fun m hm => ?_, ending.mpr rfl, fun m hm => ?_⟩
      · rcases Nat.lt_succ_iff_lt_or_eq.mp hm with before | rfl
        · exact (passed m before).2.1
        · exact good
      · exact (passed m (by omega)).2.2
    | false =>
      refine ih (by omega) stands.awaits fun m hm => ?_
      rcases Nat.lt_succ_iff_lt_or_eq.mp hm with before | rfl
      · exact passed m before
      · exact ⟨inside, good, fun final => nomatch ending.mp final⟩

theorem chainFault_found (s : State) (start : Nat) : FormFound s start (s.chainFault start) :=
  formWalk_found 16 rfl (chainAwaits_zero s start) nofun

/-- The walk for the length of a well-formed chain stops just after its last slot. -/
theorem chainExtent_wellFormed {length : Nat} (formed : WellFormedChain s start length) (n : Nat) :
    ∀ {k : Nat} {need : Option (Bool × Word)}, k < length → length ≤ k + n → ChainAwaits s start k need →
      chainExtent s start n k (need.map Prod.fst) = length := by
  obtain ⟨-, -, -, good, final, only⟩ := formed
  induction n with
  | zero => intros; omega
  | succ n ih =>
    intro k need inside room awaits
    obtain ⟨ends, after, stands⟩ := (goodSlot_iff_stands awaits).mp (good k inside)
    have ending := stands.endsAt_iff awaits
    rw [chainExtent_stands n stands]
    cases ends with
    | true =>
      rw [if_pos rfl]
      by_contra more
      exact only k (by omega) (ending.mpr rfl)
    | false =>
      refine ih ?_ (by omega) stands.awaits
      by_contra behind
      obtain rfl : k = length - 1 := by omega
      exact nomatch ending.mp final

theorem chainLength_wellFormed {length : Nat} (formed : WellFormedChain s start length) :
    s.chainLength start = length :=
  chainExtent_wellFormed formed 16 (need := none) formed.1 (by have := formed.2.1; omega) (chainAwaits_zero s start)

end Slots

/-! ### The findings exclude each other -/

theorem firstBad_le {s : State} {start d e : Nat} (hd : FirstBad s start d) (he : FirstBad s start e) : e ≤ d := by
  obtain ⟨-, -, fault⟩ := hd
  obtain ⟨bound, passed, -⟩ := he
  by_contra later
  obtain ⟨inside, good, -⟩ := passed d (Nat.lt_of_not_le later)
  rcases fault with rfl | past | bad
  · exact later bound
  · omega
  · exact bad good

theorem firstBad_unique {s : State} {start d e : Nat} (hd : FirstBad s start d) (he : FirstBad s start e) : d = e :=
  Nat.le_antisymm (firstBad_le he hd) (firstBad_le hd he)

theorem not_firstBad_of_wellFormed {s : State} {start n d : Nat} (formed : WellFormedChain s start n) :
    ¬FirstBad s start d := by
  rintro ⟨-, passed, fault⟩
  obtain ⟨least, most, fits, good, final, -⟩ := formed
  by_cases inside : d < n
  · rcases fault with rfl | past | bad
    · omega
    · omega
    · exact bad (good d inside)
  · exact (passed (n - 1) (by omega)).2.2 final

end Sys2Proof.Machine

namespace Sys2Proof.Claims

open Sys2Proof.Machine

/-- Settles O50: the walk of the form check finds a well-formed chain or a first bad slot, and no start has both, nor
two first bad slots. -/
theorem formCheckFindsTheFirstBadSlot : Obligations.FormCheckFindsTheFirstBadSlot := by
  intro s start
  have found := chainFault_found s start
  refine ⟨?_, fun n => chainLength_wellFormed, fun d => ?_⟩
  · cases fault : s.chainFault start with
    | none => simpa [fault, FormFound] using found
    | some d =>
      rw [fault] at found
      exact ⟨nofun, fun ⟨n, formed⟩ => absurd found (not_firstBad_of_wellFormed formed)⟩
  · cases fault : s.chainFault start with
    | none =>
      rw [fault] at found
      obtain ⟨n, formed⟩ := found
      exact ⟨nofun, fun bad => absurd bad (not_firstBad_of_wellFormed formed)⟩
    | some e =>
      rw [fault] at found
      exact ⟨fun same => Option.some.inj same ▸ found, fun bad => congrArg some (firstBad_unique found bad)⟩

end Sys2Proof.Claims
end

section
/-! SUPPORT. The verdict on a Checkout: the predicates over the inputs collected, the fold of a well-formed chain, the
checks of a Checkout that come before its rule chain, and the proof of O49. -/

namespace Sys2Proof.Machine

open Sys2Proof.Claims

/-! ### The inputs of the rules -/

/-- The numbers of the pairs that pass a test are those whose contents pass it. -/
theorem filter_numbers_perm {α : Type} {t : Table α} (rising : TableRising t) (d : α) {test : α → Bool} {n : Nat}
    (unlisted : test d = false) (fit : ∀ i, n ≤ i → test (tableGet d t i) = false) :
    ((t.filter (fun e => test e.2)).map Prod.fst).Perm ((List.range n).filter (fun i => test (tableGet d t i))) := by
  have distinct : ((t.filter (fun e => test e.2)).map Prod.fst).Nodup :=
    List.pairwise_map.mpr ((List.Pairwise.filter _ rising).imp Nat.ne_of_lt)
  rw [List.perm_ext_iff_of_nodup distinct (List.nodup_range.filter _)]
  intro i
  rw [mem_filter_numbers rising d unlisted, List.mem_filter, List.mem_range]
  refine ⟨fun passes => ⟨?_, passes⟩, And.right⟩
  by_contra high
  simp [fit i (Nat.le_of_not_lt high)] at passes

/-- A figure summed over the pairs of a table that pass a test is its sum over the numbers whose contents pass it. -/
theorem sum_filter_table {α : Type} {t : Table α} (rising : TableRising t) (d : α) {test : α → Bool}
    (figure : α → Nat) {n : Nat} (unlisted : test d = false) (fit : ∀ i, n ≤ i → test (tableGet d t i) = false) :
    ((t.filter (fun e => test e.2)).map (fun e => figure e.2)).sum =
      (((List.range n).filter (fun i => test (tableGet d t i))).map (fun i => figure (tableGet d t i))).sum := by
  have byNumber : (t.filter (fun e => test e.2)).map (fun e => figure e.2) =
      ((t.filter (fun e => test e.2)).map Prod.fst).map (fun i => figure (tableGet d t i)) := by
    rw [List.map_map]
    refine List.map_congr_left fun e listed => ?_
    have found : tableFind t e.1 = some e.2 := tableFind_of_mem rising (List.mem_of_mem_filter listed)
    simp [tableGet, found]
  rw [byNumber]
  exact ((filter_numbers_perm rising d unlisted fit).map _).sum_eq

/-- The test by which `State.userSeats` picks the holdings of a user in a feature (R33). -/
def Holding.seatedBy (feature user : Nat) (h : Holding) : Bool :=
  h.state.counted && h.feature == feature && h.user == user

theorem seatedBy_eq (feature user : Nat) (h : Holding) :
    h.seatedBy feature user = decide (h.state.counted = true ∧ h.feature = feature ∧ h.user = user) := by
  simp [Holding.seatedBy, Bool.and_assoc, beq_eq_decide]

/-- The seats that USER_CAP reads, summed over the listed holdings, are those of the 8192 entries (R33). -/
theorem userSeats_eq {s : State} (tables : TablesOk s) (entries : EntriesOk s) (feature user : Nat) :
    s.userSeats feature user = seatsHeld s feature user := by
  have fit (i : Nat) (high : 8192 ≤ i) : (s.holding i).seatedBy feature user = false := by
    simp [Holding.seatedBy, entries.holdings_fit i high, HoldingState.counted]
  calc s.userSeats feature user
      = (((List.range 8192).filter (fun i => (s.holding i).seatedBy feature user)).map
          (fun i => (s.holding i).seats)).sum :=
        sum_filter_table tables.holdings_canonical.1 Holding.initial Holding.seats rfl fit
    _ = seatsHeld s feature user := by simp only [seatedBy_eq, seatsHeld]

theorem hoursHold_iff (operand : Word) (hour : Nat) :
    hoursHold operand hour = true ↔
      (operand.toNat / 256 < operand.toNat % 256 ∧ operand.toNat / 256 ≤ hour ∧ hour < operand.toNat % 256)
      ∨ (operand.toNat % 256 < operand.toNat / 256 ∧ (operand.toNat / 256 ≤ hour ∨ hour < operand.toNat % 256)) := by
  simp only [hoursHold, hiByte_toNat, loByte_toNat]
  split_ifs with rises falls
  · simp [rises, Nat.lt_asymm rises]
  · simp [rises, falls]
  · simp [rises, falls]

/-- The predicates read what the statements say they read (R28 to R34); HOSTS reads the extension after its term. -/
theorem holds_iff {s : State} (tables : TablesOk s) (entries : EntriesOk s) (a : Asking) (p : Predicate)
    (operand hi : Word) (next : Slot) (extended : p = .hosts → next = .extension hi) :
    p.holds operand hi (s.ruleInputs a) = true ↔ PredicateTrue s a p operand next := by
  cases p with
  | group => cases found : s.user a.user <;> simp [Predicate.holds, PredicateTrue, State.ruleInputs, found]
  | hostClass => exact beq_iff_eq
  | project => exact beq_iff_eq
  | seats => exact decide_eq_true_iff
  | hours => exact hoursHold_iff operand _
  | days => exact Iff.rfl
  | userCap => simp [Predicate.holds, PredicateTrue, State.ruleInputs, userSeats_eq tables entries]
  | hosts =>
    have reads : PredicateTrue s a .hosts operand next ↔ operand.toNat ≤ a.host ∧ a.host ≤ hi.toNat := by
      simp [PredicateTrue, extended rfl]
    rw [reads, Predicate.holds, Bool.and_eq_true, decide_eq_true_iff, decide_eq_true_iff]
    rfl

/-! ### The verdict, slot by slot -/

section Fold

variable {s : State} {a : Asking} {start k : Nat}

theorem verdictAfter_extension {hi : Word} (here : s.slot (start + k) = .extension hi) :
    VerdictAfter s a start (k + 1) ↔ VerdictAfter s a start k := by
  simp [VerdictAfter, here]

/-- A term's value joined to the verdict before it gives the verdict after it (R35). -/
theorem verdictAfter_term {c : Combine} {negate last : Bool} {p : Predicate} {operand : Word}
    (here : s.slot (start + k) = .term c negate last p operand) {verdict value : Bool}
    (before : verdict = true ↔ VerdictAfter s a start k)
    (valued : value = true ↔ (PredicateTrue s a p operand (s.slot (start + k + 1)) ↔ negate = false)) :
    c.join verdict value = true ↔ VerdictAfter s a start (k + 1) := by
  simp only [VerdictAfter, here, ← before, ← valued]
  cases c with
  | set => rfl
  | and => exact Bool.and_eq_true_iff
  | or => exact Bool.or_eq_true_iff
  | xor => cases verdict <;> cases value <;> decide

theorem takesFalse_term {c : Combine} {negate last : Bool} {p : Predicate} {operand : Word}
    (here : s.slot (start + k) = .term c negate last p operand) {verdict joined : Bool}
    (before : verdict = true ↔ VerdictAfter s a start k) (after : joined = true ↔ VerdictAfter s a start (k + 1)) :
    TakesFalse s a start k ↔ (!joined && (verdict || k == 0)) = true := by
  simp [TakesFalse, here, ← before, ← after]

theorem not_takesFalse_extension {hi : Word} (here : s.slot (start + k) = .extension hi) :
    ¬TakesFalse s a start k := by
  rintro ⟨⟨c, negate, last, p, operand, found⟩, -⟩
  cases here.symm.trans found

/-- In a well-formed chain a HOSTS term is followed by an extension of the chain (R34, R38). -/
theorem extension_after_hosts {length : Nat} (formed : WellFormedChain s start length) (inside : k < length)
    {c : Combine} {negate last : Bool} {lo : Word} (here : s.slot (start + k) = .term c negate last .hosts lo) :
    k + 1 < length ∧ ∃ hi, s.slot (start + k + 1) = .extension hi := by
  obtain ⟨-, -, -, good, final, -⟩ := formed
  have more : k + 1 < length := by
    by_contra stops
    obtain rfl : k = length - 1 := by omega
    exact ((endsAt_term_iff here).mp final).2 rfl
  obtain ⟨hi, next, -⟩ := (good (k + 1) more).1 lo ⟨k, c, negate, last, rfl, here⟩
  exact ⟨more, hi, next⟩

/-- The `m` slots of the chain at a start from an offset on. -/
def State.chainFrom (s : State) (start k m : Nat) : List Slot := (List.range' k m).map (fun j => s.slot (start + j))

theorem chainAt_eq_chainFrom (s : State) (start : Nat) :
    s.chainAt start = s.chainFrom start 0 (s.chainLength start) := by
  rw [State.chainAt, List.range_eq_range', State.chainFrom]

theorem chainFrom_succ (s : State) (start k m : Nat) :
    s.chainFrom start k (m + 1) = s.slot (start + k) :: s.chainFrom start (k + 1) m := rfl

/-- One slot of the fold: the verdict after it, and the deciding offset, which becomes its own where the verdict takes
the value false there (R35, R36). -/
theorem foldChain_slot (tables : TablesOk s) (entries : EntriesOk s) {length m : Nat}
    (formed : WellFormedChain s start length) (left : k + (m + 1) = length) {verdict : Bool}
    (before : verdict = true ↔ VerdictAfter s a start k) (deciding : Nat) :
    ∃ joined decided, (joined = true ↔ VerdictAfter s a start (k + 1))
      ∧ (TakesFalse s a start k → decided = k) ∧ (¬TakesFalse s a start k → decided = deciding)
      ∧ foldChain (s.ruleInputs a) (s.chainFrom start k (m + 1)) k verdict deciding =
          foldChain (s.ruleInputs a) (s.chainFrom start (k + 1) m) (k + 1) joined decided := by
  rw [chainFrom_succ]
  cases here : s.slot (start + k) with
  | extension hi =>
    have passed : ¬TakesFalse s a start k := not_takesFalse_extension here
    exact ⟨verdict, deciding, before.trans (verdictAfter_extension here).symm, fun takes => absurd takes passed,
      fun _ => rfl, rfl⟩
  | term c negate last p operand =>
    let value := p.holds operand (extensionOperand (s.chainFrom start (k + 1) m)) (s.ruleInputs a) != negate
    let joined := c.join verdict value
    have extended (hosts : p = .hosts) :
        s.slot (start + k + 1) = .extension (extensionOperand (s.chainFrom start (k + 1) m)) := by
      subst hosts
      obtain ⟨more, hi, next⟩ := extension_after_hosts formed (by omega) here
      obtain ⟨j, rfl⟩ : ∃ j, m = j + 1 := ⟨m - 1, by omega⟩
      rw [chainFrom_succ, ← Nat.add_assoc, next]
      rfl
    have valued : value = true ↔ (PredicateTrue s a p operand (s.slot (start + k + 1)) ↔ negate = false) := by
      rw [← holds_iff tables entries a p operand _ _ extended]
      cases negate <;> simp [value]
    have after : joined = true ↔ VerdictAfter s a start (k + 1) := verdictAfter_term here before valued
    have takes := takesFalse_term here before after
    exact ⟨joined, if !joined && (verdict || k == 0) then k else deciding, after,
      fun h => if_pos (takes.mp h), fun h => if_neg (mt takes.mpr h), rfl⟩

/-- The fold of the slots from an offset on ends in the verdict after the whole chain (R35). -/
theorem foldChain_verdict (tables : TablesOk s) (entries : EntriesOk s) {length : Nat}
    (formed : WellFormedChain s start length) (m : Nat) : ∀ {k : Nat} {verdict : Bool} {deciding : Nat},
      k + m = length → (verdict = true ↔ VerdictAfter s a start k) →
      ((foldChain (s.ruleInputs a) (s.chainFrom start k m) k verdict deciding).1 = true ↔
        VerdictAfter s a start length) := by
  induction m with
  | zero => exact fun left before => left ▸ before
  | succ m ih =>
    intro k verdict deciding left before
    obtain ⟨joined, decided, after, -, -, fold⟩ := foldChain_slot tables entries formed left before deciding
    rw [fold]
    exact ih (by omega) after

/-- The fold ends with the last offset at which the verdict takes the value false, where that lies before the slots or
among them (R36). -/
theorem foldChain_deciding (tables : TablesOk s) (entries : EntriesOk s) {length d : Nat}
    (formed : WellFormedChain s start length) (inside : d < length) (takes : TakesFalse s a start d)
    (latest : ∀ j, d < j → j < length → ¬TakesFalse s a start j) (m : Nat) :
    ∀ {k : Nat} {verdict : Bool} {deciding : Nat}, k + m = length → (verdict = true ↔ VerdictAfter s a start k) →
      (d < k → deciding = d) →
      (foldChain (s.ruleInputs a) (s.chainFrom start k m) k verdict deciding).2 = d := by
  induction m with
  | zero => exact fun left _ found => found (lt_of_lt_of_eq inside left.symm)
  | succ m ih =>
    intro k verdict deciding left before found
    obtain ⟨joined, decided, after, turns, stays, fold⟩ := foldChain_slot tables entries formed left before deciding
    rw [fold]
    refine ih (by omega) after fun reached => ?_
    rcases Nat.lt_succ_iff_lt_or_eq.mp reached with earlier | rfl
    · rw [stays (latest k earlier (by omega)), found earlier]
    · exact turns takes

end Fold

theorem verdict_no_chain {s : State} {f : Feature} (unruled : f.chain = none) (inp : RuleInputs) :
    s.verdict f inp = (true, 0) := by
  simp [State.verdict, unruled]

theorem verdict_chain {s : State} {f : Feature} {start : Nat} (chain : f.chain = some start) (inp : RuleInputs) :
    s.verdict f inp = foldChain inp (s.chainFrom start 0 (s.chainLength start)) 0 false 0 := by
  simp [State.verdict, chain, chainAt_eq_chainFrom]

/-- A chain that the form check passes is well formed over its own length (R38). -/
theorem wellFormed_chainLength {s : State} {start : Nat} (passes : s.chainFault start = none) :
    WellFormedChain s start (s.chainLength start) := by
  obtain ⟨n, formed⟩ := ((formCheckFindsTheFirstBadSlot s start).1).mp passes
  rwa [chainLength_wellFormed formed]

/-! ### The checks of a Checkout before its rule chain -/

theorem isBarred_iff (s : State) (user : Nat) : s.isBarred user = true ↔ Barred s user := by
  cases found : s.user user <;> simp [State.isBarred, Barred, found]

theorem checkoutBadWord_none {f : Frame} {s : State} (pass : FieldsPass (checkoutAsking f s)) :
    checkoutBadWord f = none := by
  obtain ⟨feature, user, host, least, most⟩ := pass
  simp only [checkoutAsking] at feature user host least most
  simp [checkoutBadWord, firstBadWord, feature, user, host, Nat.ne_of_gt least, most]

theorem ended_of_licensed {f : Feature} {t : Nat} (licensed : Licensed f t) : f.ended t = false := by
  obtain ⟨-, -, before⟩ := licensed
  cases ending : f.endDay with
  | none => simp [Feature.ended, Feature.endInstant, ending]
  | some d => simp [Feature.ended, Feature.endInstant, ending, before d ending]

/-- A Checkout that passes every other check is left to the verdict of its feature's chain (R75, R76). -/
theorem checkoutRefusal_verdict {s : State} {a : Asking} {f : Feature} (known : s.feature a.feature = some f)
    (licensed : Licensed f s.siteTime) (standing : ¬Barred s a.user)
    (project : a.project = 0 ∨ a.project ∈ s.projects) :
    s.checkoutRefusal a =
      if (s.verdict f (s.ruleInputs a)).1 then none
      else some (plain .deniedRule (s.verdict f (s.ruleInputs a)).2) := by
  have unbarred : s.isBarred a.user = false := Bool.eq_false_iff.mpr (mt (isBarred_iff s a.user).mp standing)
  have listed : ¬(a.project ≠ 0 ∧ a.project ∉ s.projects) := by tauto
  have unended : f.ended s.siteTime = false := ended_of_licensed licensed
  obtain ⟨active, started, -⟩ := licensed
  have begun : ¬s.siteTime < f.startInstant := Nat.not_lt.mpr started
  simp [State.checkoutRefusal, known, active, begun, unended, unbarred, listed]

theorem serveCheckout_refused {f : Frame} {s : State} {answer : Answer} (opened : s.service = .opened)
    (fields : FieldsPass (checkoutAsking f s)) (refused : s.checkoutRefusal (checkoutAsking f s) = some answer) :
    serveCheckout f s = (s, answer) := by
  simp [serveCheckout, opened, checkoutBadWord_none fields, refused]

end Sys2Proof.Machine

namespace Sys2Proof.Claims

open Sys2Proof.Machine

/-- Settles O49: over a chain that the form check passes the fold gives the verdict after each slot, and keeps the last
offset at which it took the value false; a Checkout refused by it has been let through by every check before. -/
theorem ruleChainGivesTheVerdict : Obligations.RuleChainGivesTheVerdict := by
  intro s f tables entries
  have verdict_iff (a : Asking) (start : Nat) (chain : f.chain = some start) (passes : s.chainFault start = none) :
      (s.verdict f (s.ruleInputs a)).1 = true ↔ VerdictAfter s a start (s.chainLength start) := by
    rw [verdict_chain chain]
    exact foldChain_verdict tables entries (wellFormed_chainLength passes) _ (Nat.zero_add _) (by simp [VerdictAfter])
  refine ⟨fun a unruled => by rw [verdict_no_chain unruled], verdict_iff, ?_⟩
  intro rest tag feature user host project seats wait cls start d taking a opened fields known licensed standing
    listed chain passes falls inside takes latest
  have denied : (s.verdict f (s.ruleInputs a)).1 = false :=
    Bool.eq_false_iff.mpr (mt (verdict_iff a start chain passes).mp falls)
  have deciding : (s.verdict f (s.ruleInputs a)).2 = d := by
    rw [verdict_chain chain]
    exact foldChain_deciding tables entries (wellFormed_chainLength passes) inside takes latest _ (Nat.zero_add _)
      (by simp [VerdictAfter]) nofun
  have refused : s.checkoutRefusal a = some (plain .deniedRule d) := by
    rw [checkoutRefusal_verdict known licensed standing listed, denied, deciding]
    rfl
  have header : reply 0x01#8 tag 0x11#8 d [] = [0x0103#16, tag, outcome 0x11#8 d] := rfl
  rw [← header]
  exact serveKind_reply taking (kind := 0x01#8) (by decide) rfl (.inl rfl)
    (serveCheckout_refused (s := s.leaving rest) opened fields refused)

end Sys2Proof.Claims
end

section
/-! SUPPORT. Write Terms: the coding of a slot, the slots that a frame carries, the slots in use, the run written into
the term store, and the proof of O46. -/

namespace Sys2Proof.Machine

open Sys2Proof.Claims

/-! ### The coding of a slot (R173) -/

theorem extractLsb'_toNat_eq_div (w : Word) (low count : Nat) :
    (w.extractLsb' low count).toNat = w.toNat / 2 ^ low % 2 ^ count := by
  rw [BitVec.extractLsb'_toNat, Nat.shiftRight_eq_div_pow]

theorem getLsbD_eq_decide (w : Word) (i : Nat) : w.getLsbD i = decide (w.toNat / 2 ^ i % 2 = 1) := by
  rw [← BitVec.testBit_toNat, Nat.testBit_eq_decide_div_mod_eq]

theorem combine_ofCode (n : Nat) :
    Combine.ofCode n =
      if 4 ≤ n then none else some (([Combine.set, Combine.and, Combine.or, Combine.xor])[n]?.getD .set) :=
  match n with
  | 0 | 1 | 2 | 3 => rfl
  | n + 4 => (if_pos (Nat.le_add_left 4 n)).symm

theorem predicate_ofCode (n : Nat) :
    Predicate.ofCode n =
      if 8 ≤ n then none
      else
        some (([Predicate.group, Predicate.hostClass, Predicate.project, Predicate.seats, Predicate.hours,
          Predicate.days, Predicate.userCap, Predicate.hosts])[n]?.getD .group) :=
  match n with
  | 0 | 1 | 2 | 3 | 4 | 5 | 6 | 7 => rfl
  | n + 8 => (if_pos (Nat.le_add_left 8 n)).symm

/-- Two words carry the slot that they mean, and none exactly where the first is badly coded. -/
theorem slotOfWords_eq (w operand : Word) :
    slotOfWords w operand = if badlyCoded w then none else some (slotMeant w operand) := by
  have kind : w.toNat / 2 ^ 14 % 2 ^ 2 = w.toNat / 16384 := by have := w.isLt; omega
  have combine : w.toNat / 2 ^ 11 % 2 ^ 3 = w.toNat / 2048 % 8 := rfl
  have predicate : w.toNat / 2 ^ 0 % 2 ^ 4 = w.toNat % 16 := by rw [Nat.pow_zero, Nat.div_one]; rfl
  simp only [slotOfWords, extractLsb'_toNat_eq_div, kind, combine, predicate, combine_ofCode, predicate_ofCode,
    getLsbD_eq_decide]
  by_cases extension : w.toNat / 16384 = 2
  · simp [badlyCoded, slotMeant, extension]
  · by_cases term : w.toNat / 16384 = 1
    · by_cases badCombine : 4 ≤ w.toNat / 2048 % 8
      · simp [badlyCoded, term, badCombine]
      · by_cases badPredicate : 8 ≤ w.toNat % 16
        · simp [badlyCoded, term, badCombine, badPredicate]
        · simp [badlyCoded, slotMeant, term, badCombine, badPredicate]
    · simp [badlyCoded, extension, term]

/-! ### The slots that a Write Terms frame carries -/

theorem length_termsFrame (tag first : Word) (slots : List (Word × Word)) :
    (termsFrame tag first slots).length = 3 + 2 * slots.length := by
  have words : (slots.flatMap (fun p => [p.1, p.2])).length = 2 * slots.length := by simp [Nat.mul_comm]
  rw [termsFrame, List.length_cons, List.length_cons, List.length_cons, words]
  omega

theorem slotCount_termsFrame (tag first : Word) (slots : List (Word × Word)) :
    slotCount (termsFrame tag first slots) = slots.length := by
  rw [slotCount, length_termsFrame]
  omega

theorem hiByte_termsHeader {n : Nat} (most : n ≤ 18) : hiByte (BitVec.ofNat 16 (0x2B00 + 3 + 2 * n)) = 0x2B#8 := by
  refine BitVec.eq_of_toNat_eq ?_
  rw [hiByte_toNat, BitVec.toNat_ofNat, BitVec.toNat_ofNat]
  omega

theorem lengthTaken_writeTerms {n : Nat} (least : 1 ≤ n) (most : n ≤ 18) : lengthTaken 0x2B (3 + 2 * n) = true := by
  simp only [lengthTaken, Bool.and_eq_true, decide_eq_true_eq, beq_iff_eq]
  omega

/-- The words of a run, two to a slot. -/
theorem getD_slotWords {slots : List (Word × Word)} {p : Word × Word} : ∀ {i : Nat}, slots[i]? = some p →
    (slots.flatMap (fun p => [p.1, p.2])).getD (2 * i) 0#16 = p.1
    ∧ (slots.flatMap (fun p => [p.1, p.2])).getD (2 * i + 1) 0#16 = p.2 := by
  induction slots with
  | nil => exact nofun
  | cons q slots ih =>
    intro i found
    cases i with
    | zero =>
      obtain rfl : q = p := Option.some.inj found
      exact ⟨rfl, rfl⟩
    | succ i => exact ih found

theorem carriedSlot_termsFrame (tag first : Word) {slots : List (Word × Word)} {i : Nat} {p : Word × Word}
    (found : slots[i]? = some p) :
    carriedSlot (termsFrame tag first slots) i = if badlyCoded p.1 then none else some (slotMeant p.1 p.2) := by
  obtain ⟨word, operand⟩ := getD_slotWords found
  rw [carriedSlot, Nat.add_comm 3, Nat.add_comm 4, ← slotOfWords_eq]
  exact congrArg₂ slotOfWords word operand

theorem slotBadWord_eq (f : Frame) :
    slotBadWord f =
      ((List.range (slotCount f)).find? (fun i => (carriedSlot f i).isNone)).map (fun i => 3 + 2 * i) := by
  simp [slotBadWord, firstBadWord, List.find?_map, Function.comp_def]

/-- The first badly coded slot names the word it begins in (R42). -/
theorem slotBadWord_some (tag first : Word) {slots : List (Word × Word)} {k : Nat} {p : Word × Word}
    (found : slots[k]? = some p) (bad : badlyCoded p.1)
    (before : ∀ m q, m < k → slots[m]? = some q → ¬badlyCoded q.1) :
    slotBadWord (termsFrame tag first slots) = some (3 + 2 * k) := by
  obtain ⟨inside, -⟩ := List.getElem?_eq_some_iff.mp found
  have firstBad : (List.range slots.length).find? (fun i => (carriedSlot (termsFrame tag first slots) i).isNone)
      = some k := by
    refine List.find?_range_eq_some.mpr ⟨?_, List.mem_range.mpr inside, fun m earlier => ?_⟩
    · simp [carriedSlot_termsFrame tag first found, bad]
    · have here : slots[m]? = some slots[m] := List.getElem?_eq_getElem (earlier.trans inside)
      simp [carriedSlot_termsFrame tag first here, before m _ earlier here]
  rw [slotBadWord_eq, slotCount_termsFrame, firstBad]
  rfl

theorem slotBadWord_none (tag first : Word) {slots : List (Word × Word)} (good : ∀ p ∈ slots, ¬badlyCoded p.1) :
    slotBadWord (termsFrame tag first slots) = none := by
  rw [slotBadWord_eq, slotCount_termsFrame, Option.map_eq_none_iff, List.find?_eq_none]
  intro i listed
  have inside : i < slots.length := List.mem_range.mp listed
  have here : slots[i]? = some slots[i] := List.getElem?_eq_getElem inside
  have coded : ¬badlyCoded slots[i].1 := good _ (List.getElem_mem inside)
  simp [carriedSlot_termsFrame tag first here, coded]

/-! ### The slots in use, and the run written -/

theorem slotInUse_iff {s : State} (rising : TableRising s.features) (k : Nat) : s.slotInUse k = true ↔ InUse s k := by
  rw [State.slotInUse, List.any_eq_true]
  constructor
  · rintro ⟨⟨code, f⟩, listed, covers⟩
    cases chain : f.chain with
    | none => simp [chain] at covers
    | some start =>
      obtain ⟨low, high⟩ : start ≤ k ∧ k < start + s.chainLength start := by simpa [chain] using covers
      exact ⟨code, f, start, tableFind_of_mem rising listed, chain, low, high⟩
  · rintro ⟨code, f, start, found, chain, low, high⟩
    exact ⟨(code, f), mem_of_tableFind found, by simp [chain, low, high]⟩

theorem any_slotInUse_iff {s : State} (rising : TableRising s.features) (first n : Nat) :
    (List.range n).any (fun i => s.slotInUse (first + i)) = true ↔ ∃ k, first ≤ k ∧ k < first + n ∧ InUse s k := by
  simp only [List.any_eq_true, List.mem_range, slotInUse_iff rising]
  constructor
  · rintro ⟨i, inside, used⟩
    exact ⟨first + i, by omega, by omega, used⟩
  · rintro ⟨k, low, high, used⟩
    refine ⟨k - first, by omega, ?_⟩
    rwa [Nat.add_sub_of_le low]

/-- A run of writes from a number on writes its own numbers and no others. -/
theorem tableGet_putRun {α : Type} [DecidableEq α] (d : α) (t : Table α) (first : Nat) (contents : Nat → α)
    (n j : Nat) :
    tableGet d ((List.range n).foldl (fun t i => tablePut d t (first + i) (contents i)) t) j =
      if first ≤ j ∧ j < first + n then contents (j - first) else tableGet d t j := by
  induction n with
  | zero => simp
  | succ n ih =>
    rw [List.range_succ, List.foldl_append, List.foldl_cons, List.foldl_nil, tableGet_put, ih]
    by_cases top : j = first + n
    · subst top
      simp
    · have same : first ≤ j ∧ j < first + (n + 1) ↔ first ≤ j ∧ j < first + n := by omega
      simp [top, same]

theorem slot_writeSlots (s : State) (f : Frame) (first j : Nat) :
    (s.writeSlots f first).slot j =
      if first ≤ j ∧ j < first + slotCount f then (carriedSlot f (j - first)).getD Slot.initial else s.slot j :=
  tableGet_putRun Slot.initial s.terms first _ _ j

theorem slot_writeSlots_carried (s : State) (tag first : Word) {slots : List (Word × Word)} (low : Nat) {k : Nat}
    {p : Word × Word} (found : slots[k]? = some p) (good : ¬badlyCoded p.1) :
    (s.writeSlots (termsFrame tag first slots) low).slot (low + k) = slotMeant p.1 p.2 := by
  obtain ⟨inside, -⟩ := List.getElem?_eq_some_iff.mp found
  rw [slot_writeSlots, slotCount_termsFrame, if_pos ⟨by omega, by omega⟩, Nat.add_sub_cancel_left,
    carriedSlot_termsFrame tag first found, if_neg good, Option.getD_some]

theorem slot_writeSlots_other (s : State) (f : Frame) {low k : Nat} (outside : k < low ∨ low + slotCount f ≤ k) :
    (s.writeSlots f low).slot k = s.slot k := by
  rw [slot_writeSlots, if_neg (by omega)]

/-! ### What Write Terms answers -/

theorem serveWriteTerms_past {f : Frame} {s : State} (past : 2048 < field f 2 + slotCount f) :
    serveWriteTerms f s = (s, badField 2) := by
  simp [serveWriteTerms, past]

section Inside

variable {f : Frame} {s : State} (inside : ¬(2048 < field f 2 + slotCount f ∨ 2048 ≤ field f 2))

include inside

theorem serveWriteTerms_badSlot {word : Nat} (bad : slotBadWord f = some word) :
    serveWriteTerms f s = (s, badField word) := by
  rw [serveWriteTerms, if_neg inside, bad]

theorem serveWriteTerms_inUse (good : slotBadWord f = none)
    (used : (List.range (slotCount f)).any (fun i => s.slotInUse (field f 2 + i)) = true) :
    serveWriteTerms f s = (s, plain .inUse 7) := by
  rw [serveWriteTerms, if_neg inside, good]
  exact if_pos used

theorem serveWriteTerms_written (good : slotBadWord f = none)
    (unused : ¬(List.range (slotCount f)).any (fun i => s.slotInUse (field f 2 + i)) = true) :
    serveWriteTerms f s = (s.writeSlots f (field f 2), okay (slotCount f)) := by
  rw [serveWriteTerms, if_neg inside, good]
  exact if_neg unused

end Inside

end Sys2Proof.Machine

namespace Sys2Proof.Claims

open Sys2Proof.Machine

/-- Settles O46: each clause is one branch of the owner's order of checks, read on the slots that the frame carries; a
run written slot by slot writes its own slots and no others. -/
theorem writeTermsReplacesTheRun : Obligations.WriteTermsReplacesTheRun := by
  intro s rest tag first slots taking admen tables least most a n
  let f := termsFrame tag first slots
  let u := s.leaving rest
  have count : slotCount f = n := slotCount_termsFrame tag first slots
  have whole : (first :: slots.flatMap (fun p => [p.1, p.2])).length + 2 = 3 + 2 * n :=
    length_termsFrame tag first slots
  have byOwner (t : State) (b : Answer) (ho : serveWriteTerms f u = (t, b)) :
      exec .writeTerms s = .next (t.placeReply (reply 0x2B#8 tag b.code.byte b.detail b.body)) :=
    serveKind_reply taking (hiByte_termsHeader most) (whole ▸ lengthTaken_writeTerms least most) (.inr ⟨rfl, admen⟩) ho
  have inside (fits : a + n ≤ 2048) : ¬(2048 < field f 2 + slotCount f ∨ 2048 ≤ field f 2) := by
    rw [count]
    show ¬(2048 < a + n ∨ 2048 ≤ a)
    omega
  have meets : (List.range (slotCount f)).any (fun i => u.slotInUse (field f 2 + i)) = true ↔
      ∃ k, a ≤ k ∧ k < a + n ∧ InUse u k := by
    rw [count]
    exact any_slotInUse_iff (s := u) tables.features_rising a n
  refine ⟨fun past => ?_, fun k p fits found bad before => ?_, fun fits good used => ?_, fun fits good unused => ?_⟩
  · exact byOwner u (badField 2) (serveWriteTerms_past (count.symm ▸ past))
  · exact byOwner u (badField (3 + 2 * k))
      (serveWriteTerms_badSlot (inside fits) (slotBadWord_some tag first found bad before))
  · exact byOwner u (plain .inUse 7)
      (serveWriteTerms_inUse (inside fits) (slotBadWord_none tag first good) (meets.mpr used))
  · have free : ¬∃ k, a ≤ k ∧ k < a + n ∧ InUse u k := fun ⟨k, low, high, used⟩ => unused k low high used
    have written := serveWriteTerms_written (inside fits) (slotBadWord_none tag first good) (mt meets.mp free)
    refine ⟨_, byOwner _ _ written, fun k p found => ?_, fun k outside => ?_, ?_⟩
    · exact slot_writeSlots_carried u tag first a found (good p (List.mem_of_getElem? found))
    · exact slot_writeSlots_other u f (count.symm ▸ outside)
    · rw [count]
      rfl

end Sys2Proof.Claims
end

section
/-! SUPPORT. The books of a pool: headroom in whole numbers, the tests of the charging condition, the reply to Query
Pool, and the proofs of O22 and O31. -/

namespace Sys2Proof.Machine

open Sys2Proof.Claims

/-! ### Headroom (R52) -/

theorem shortfall_eq_max (a : Allotment) : (a.shortfall : Int) = max 0 ((a.reserve : Int) - a.used) := by
  rw [Allotment.shortfall]
  omega

theorem othersShortfall_eq (s : State) (pool project : Nat) :
    (s.othersShortfall pool project : Int) =
      ((s.allotments.filter (fun a => decide (a.pool = pool ∧ a.project ≠ project))).map
        (fun a => max 0 ((a.reserve : Int) - a.used))).sum := by
  have others : ∀ a ∈ s.allotments,
      (a.pool == pool && a.project != project) = decide (a.pool = pool ∧ a.project ≠ project) :=
    fun a _ => Bool.eq_iff_iff.mpr (by simp)
  rw [State.othersShortfall, List.filter_congr others, Nat.cast_list_sum, List.map_map]
  exact congrArg List.sum (List.map_congr_left fun a _ => shortfall_eq_max a)

/-- Truncated subtraction is subtraction cut off at 0: allotment by allotment in the shortfalls, and once for the whole
(R52). -/
theorem headroom_eq_max (s : State) (pool project : Nat) :
    (s.headroom pool project : Int) =
      max 0 ((s.pool pool).capacity - (s.pool pool).used
        - ((s.allotments.filter (fun a => decide (a.pool = pool ∧ a.project ≠ project))).map
            (fun a => max 0 ((a.reserve : Int) - a.used))).sum) := by
  rw [← othersShortfall_eq, State.headroom]
  omega

/-! ### The charging condition (R53) -/

theorem queueAhead_iff (s : State) (pool cls : Nat) :
    s.queueAhead pool cls = true ↔
      ∃ j ∈ (s.pool pool).queue, (s.waiter j).state = .waiting ∧ cls ≤ (s.waiter j).cls := by
  simp [State.queueAhead]

theorem capExceeded_iff (s : State) (pool project cost : Nat) :
    s.capExceeded pool project cost = true ↔
      ∃ a cap, s.allotment project pool = some a ∧ a.cap = some cap ∧ cap < a.used + cost := by
  unfold State.capExceeded
  cases s.allotment project pool with
  | none => simp
  | some a => cases capped : a.cap <;> simp [capped]

/-! ### Query Pool (R62) -/

theorem serveQueryPool_outside {f : Frame} {s : State} (outside : 64 ≤ field f 2) :
    serveQueryPool f s = (s, badField 2) :=
  if_pos outside

theorem serveQueryPool_unknown {f : Frame} {s : State} (inside : field f 2 < 64) (named : field f 3 ≠ 0)
    (unlisted : field f 3 ∉ s.projects) : serveQueryPool f s = (s, plain .unknownProject 0) :=
  (if_neg (Nat.not_le.mpr inside)).trans (if_pos ⟨named, unlisted⟩)

theorem serveQueryPool_known {f : Frame} {s : State} (inside : field f 2 < 64)
    (known : field f 3 = 0 ∨ field f 3 ∈ s.projects) :
    serveQueryPool f s = (s, { code := .ok, detail := 0, body := s.poolBody (field f 2) (field f 3) }) :=
  (if_neg (Nat.not_le.mpr inside)).trans (if_neg fun unknown => known.elim unknown.1 unknown.2)

/-- The allotment that Query Pool shows: project 0 has none (R62). -/
def State.shownAllotment (s : State) (pool project : Nat) : Option Allotment :=
  if project = 0 then none else s.allotment project pool

theorem shownAllotment_zero (s : State) (pool : Nat) : s.shownAllotment pool 0 = none := if_pos rfl

theorem shownAllotment_named (s : State) (pool : Nat) {project : Nat} (named : project ≠ 0) :
    s.shownAllotment pool project = s.allotment project pool := if_neg named

/-- The body of Query Pool (R62): the pool's figures, and the words of the allotment shown. -/
theorem poolBody_eq (s : State) (pool project : Nat) :
    s.poolBody pool project =
      [wordOf (s.pool pool).capacity, wordOf (s.pool pool).borrowCap, wordOf (s.pool pool).used,
          wordOf (s.pool pool).borrowed, wordOf (s.pool pool).lingering]
        ++ two (s.reserveSum pool)
        ++ [wordOf (s.pool pool).queue.length, if (s.pool pool).isOver then 1#16 else 0#16,
          wordOf (s.headroom pool project)]
        ++ allotmentWords (s.shownAllotment pool project) := rfl

theorem allotmentWords_uncapped {a : Allotment} (uncapped : a.cap = none) :
    allotmentWords (some a) = [1#16, wordOf a.reserve, 0#16, wordOf a.used] := by
  rw [allotmentWords, uncapped]
  rfl

theorem allotmentWords_capped {a : Allotment} {cap : Nat} (capped : a.cap = some cap) :
    allotmentWords (some a) = [2#16, wordOf a.reserve, wordOf cap, wordOf a.used] := by
  rw [allotmentWords, capped]
  rfl

end Sys2Proof.Machine

namespace Sys2Proof.Claims

open Sys2Proof.Machine

/-- Settles O22: headroom is its formula cut off at 0, and the causes are the branches of the charging condition, in
their order, once its two tests of the queue and the cap are said in the statement's words. -/
theorem chargingConditionWeighsTheBooks : Obligations.ChargingConditionWeighsTheBooks := by
  refine ⟨headroom_eq_max, fun s pool project cls cost => ?_⟩
  intro overfull ahead capped short
  have waited : s.queueAhead pool cls = true ↔ ahead := queueAhead_iff s pool cls
  have passed : s.capExceeded pool project cost = true ↔ capped := capExceeded_iff s pool project cost
  exact ⟨fun overdrawn => if_pos overdrawn,
    fun within queued => (if_neg within).trans (if_pos (waited.mpr queued)),
    fun within unqueued past =>
      (if_neg within).trans ((if_neg (mt waited.mp unqueued)).trans (if_pos (passed.mpr past))),
    fun within unqueued fits lacking =>
      (if_neg within).trans ((if_neg (mt waited.mp unqueued)).trans
        ((if_neg (mt passed.mp fits)).trans (if_pos lacking))),
    fun within unqueued fits enough =>
      (if_neg within).trans ((if_neg (mt waited.mp unqueued)).trans
        ((if_neg (mt passed.mp fits)).trans (if_neg enough)))⟩

/-- Settles O31: the decoder lets a client request through, the owner's two checks give the refusals, and the books are
those of the pool with the words of the allotment that the project is shown. -/
theorem queryPoolReportsTheBooks : Obligations.QueryPoolReportsTheBooks := by
  intro s rest tag pool project taking q books
  have byOwner (a : Answer)
      (ho : serveQueryPool [0x0804#16, tag, pool, project] (s.leaving rest) = (s.leaving rest, a)) :
      exec .queryPool s = .next (answered s rest (reply 0x08#8 tag a.code.byte a.detail a.body)) :=
    serveKind_reply taking (kind := 0x08#8) (by decide) rfl (.inl rfl) ho
  have reported (inside : pool.toNat < 64) (known : project.toNat = 0 ∨ project.toNat ∈ s.projects) :
      exec .queryPool s = books (allotmentWords (s.shownAllotment pool.toNat project.toNat)) := by
    rw [byOwner ⟨.ok, 0, s.poolBody pool.toNat project.toNat⟩ (serveQueryPool_known inside known), poolBody_eq]
    rfl
  refine ⟨fun outside => ?_, fun inside named unlisted => ?_, fun inside => ⟨fun zero => ?_, fun named listed => ?_⟩⟩
  · exact byOwner (badField 2) (serveQueryPool_outside outside)
  · exact byOwner (plain .unknownProject 0) (serveQueryPool_unknown inside named unlisted)
  · rw [reported inside (.inl zero), zero, shownAllotment_zero]
    rfl
  · rw [reported inside (.inr listed), shownAllotment_named s pool.toNat named]
    refine ⟨fun absent => ?_, fun a found => ⟨fun uncapped => ?_, fun cap capped => ?_⟩⟩
    · rw [absent]
      rfl
    · rw [found, allotmentWords_uncapped uncapped]
      rfl
    · rw [found, allotmentWords_capped capped]
      rfl

end Sys2Proof.Claims
end

section
/-! SUPPORT. Query Holding: which holding a handle names, the refusals and the reply, and the proof of O29. -/

namespace Sys2Proof.Machine

open Sys2Proof.Claims

/-! ### Handles (R66) -/

theorem handleNames_stale {s : State} {index gen : Nat}
    (stale : (s.holding index).gen ≠ gen ∨ (s.holding index).state = .free) : s.handleNames index gen = none :=
  if_neg fun names => stale.elim (· names.1) names.2

theorem handleNames_named {s : State} {index gen : Nat} (current : (s.holding index).gen = gen)
    (used : (s.holding index).state ≠ .free) : s.handleNames index gen = some (s.holding index) :=
  if_pos ⟨current, used⟩

/-! ### Query Holding (R92) -/

theorem serveQueryHolding_outside {f : Frame} {s : State} (outside : 8192 ≤ field f 2) :
    serveQueryHolding f s = (s, badField 2) :=
  if_pos outside

theorem serveQueryHolding_stale {f : Frame} {s : State} (inside : field f 2 < 8192)
    (stale : s.handleNames (field f 2) (field f 3) = none) : serveQueryHolding f s = (s, plain .noHolding 0) := by
  rw [serveQueryHolding, if_neg (Nat.not_le.mpr inside), stale]

theorem serveQueryHolding_named {f : Frame} {s : State} {h : Holding} (inside : field f 2 < 8192)
    (named : s.handleNames (field f 2) (field f 3) = some h) :
    serveQueryHolding f s = (s, { code := .ok, detail := 0, body := holdingBody (field f 2) h }) := by
  rw [serveQueryHolding, if_neg (Nat.not_le.mpr inside), named]

theorem wordOf_holdingState (st : HoldingState) : wordOf st.code = stateWord st := by
  cases st <;> rfl

theorem wordOf_holdingEnd (reason : Option HoldingEnd) : wordOf (holdingEndCode reason) = holdingEndWord reason := by
  rcases reason with _ | _ | _ | _ <;> rfl

theorem wordOf_word (w : Word) : wordOf w.toNat = w :=
  (BitVec.ofNat_toNat 16 w).trans (BitVec.setWidth_eq w)

/-- The body of Query Holding (R92): the words of the handle that names the entry, and the entry's fields. -/
theorem holdingBody_eq {index gen : Word} {h : Holding} (current : h.gen = gen.toNat) :
    holdingBody index.toNat h =
      [index, gen, stateWord h.state, wordOf h.feature, wordOf h.pool, wordOf h.user, wordOf h.host,
          wordOf h.project, wordOf h.seats, wordOf h.refs, wordOf h.tokens]
        ++ two h.deadline ++ [holdingEndWord h.endReason] ++ two h.eventTime := by
  rw [holdingBody, current, wordOf_word, wordOf_word, wordOf_holdingState, wordOf_holdingEnd]
  rfl

end Sys2Proof.Machine

namespace Sys2Proof.Claims

open Sys2Proof.Machine

/-- Settles O29: the decoder lets a client request through, the checks of the index and of the handle give the refusals,
and the reply carries the words of the handle and the fields of the entry that it names. -/
theorem queryHoldingReportsTheEntry : Obligations.QueryHoldingReportsTheEntry := by
  intro s rest tag index gen taking h
  have byOwner (a : Answer)
      (ho : serveQueryHolding [0x0704#16, tag, index, gen] (s.leaving rest) = (s.leaving rest, a)) :
      exec .queryHolding s = .next (answered s rest (reply 0x07#8 tag a.code.byte a.detail a.body)) :=
    serveKind_reply taking (kind := 0x07#8) (by decide) rfl (.inl rfl) ho
  refine ⟨fun outside => ?_, fun inside stale => ?_, fun inside current used => ?_⟩
  · exact byOwner (badField 2) (serveQueryHolding_outside outside)
  · exact byOwner (plain .noHolding 0) (serveQueryHolding_stale inside (handleNames_stale stale))
  · rw [byOwner ⟨.ok, 0, holdingBody index.toNat h⟩ (serveQueryHolding_named inside (handleNames_named current used)),
      holdingBody_eq current]
    rfl

end Sys2Proof.Claims
end

section
/-! SUPPORT. Cancel Wait: which waiter a ticket names, the freeing of its entry and the answer of each state, and the
proof of O30. -/

namespace Sys2Proof.Machine

open Sys2Proof.Claims

/-! ### The freeing of a waiter entry (R108) -/

theorem withdraw_eq_of_calm {s : State} (calm : s.atOnce = []) (named : Deadline → Bool) :
    s.withdraw named = { s with reached := s.reached.filter (fun d => !named d) } := by
  rw [State.withdraw, calm]
  rfl

/-- The freeing of a waiter entry where no deadline is reached at once: a FREE entry lodges none. -/
theorem freeWaiterEntry_eq {s : State} (calm : s.atOnce = []) (j : Nat) :
    s.freeWaiterEntry j =
      { s with
        reached := s.reached.filter (fun d => !d.ofWaiter j)
        waiters := tablePut Waiter.initial s.waiters j (Waiter.freeEntry (nextGen (s.waiter j).gen)) } := by
  have unlodged : (Waiter.freeEntry (nextGen (s.waiter j).gen)).state ≠ .waiting := nofun
  rw [State.freeWaiterEntry, State.placeWaiter, if_neg unlodged, withdraw_eq_of_calm calm]
  rfl

/-! ### Tickets (R108) -/

theorem ticketNames_named {s : State} {index gen : Nat} (current : (s.waiter index).gen = gen)
    (used : (s.waiter index).state ≠ .free) : s.ticketNames index gen = some (s.waiter index) :=
  if_pos ⟨current, used⟩

/-! ### Cancel Wait (R122, R123) -/

theorem waiterEndCode_eq (reason : Option WaiterEnd) : waiterEndCode reason = waiterEndNumber reason := by
  rcases reason with _ | _ | _ | _ <;> rfl

theorem serveCancelWait_named {f : Frame} {s : State} {w : Waiter} (inside : field f 2 < 256)
    (named : s.ticketNames (field f 2) (field f 3) = some w) :
    serveCancelWait f s = s.cancelWaiter (field f 2) w := by
  rw [serveCancelWait, if_neg (Nat.not_le.mpr inside), named]

theorem cancelWaiter_waiting {s : State} {j : Nat} {w : Waiter} {f : Feature} (state : w.state = .waiting)
    (found : s.feature w.feature = some f) :
    s.cancelWaiter j w =
      ((s.leaveQueue f.pool j).freeWaiterEntry j, ⟨.ok, 4, [4#16, 0#16, 0#16, 0#16, 0#16]⟩) := by
  rw [State.cancelWaiter, state, State.featureOf, found]
  rfl

theorem cancelWaiter_granted {s : State} {j : Nat} {w : Waiter} (state : w.state = .granted) :
    s.cancelWaiter j w =
      (s.freeWaiterEntry j,
        ⟨.granted, if w.merged then 1 else 0, [0#16, wordOf w.handleIndex, wordOf w.handleGen, 0#16, 0#16]⟩) := by
  rw [State.cancelWaiter, state]

theorem cancelWaiter_ended {s : State} {j : Nat} {w : Waiter} (state : w.state = .ended) :
    s.cancelWaiter j w =
      (s.freeWaiterEntry j,
        ⟨.ended, waiterEndNumber w.endReason,
          [wordOf (waiterEndNumber w.endReason), 0#16, 0#16] ++ two w.eventTime⟩) := by
  rw [State.cancelWaiter, state, waiterEndCode_eq]
  rfl

end Sys2Proof.Machine

namespace Sys2Proof.Claims

open Sys2Proof.Machine

/-- Settles O30: the ticket names the waiter, whose state gives the answer; the entry is freed in the state that the
taking of the frame, and for a WAITING waiter the leaving of its queue, has made. -/
theorem cancelWaitFreesTheWaiter : Obligations.CancelWaitFreesTheWaiter := by
  intro s rest tag index gen taking calm j w freed inside current
  have served (used : w.state ≠ .free) :
      serveCancelWait [0x0604#16, tag, index, gen] (s.leaving rest) = (s.leaving rest).cancelWaiter j w :=
    serveCancelWait_named inside (ticketNames_named current used)
  have byState {t : State} {a : Answer} (used : w.state ≠ .free)
      (cancelled : (s.leaving rest).cancelWaiter j w = (t, a)) :
      exec .cancelWait s = .next (t.placeReply (reply 0x06#8 tag a.code.byte a.detail a.body)) :=
    serveKind_reply taking (kind := 0x06#8) (by decide) rfl (.inl rfl) ((served used).trans cancelled)
  have calmTaken : (s.leaving rest).atOnce = [] := calm
  refine ⟨fun f waiting found => ?_, fun granted => ?_, fun ended => ?_⟩
  · have calmLeft : ((s.leaving rest).leaveQueue f.pool j).atOnce = [] := calm
    rw [byState (waiting.trans_ne nofun) (cancelWaiter_waiting waiting found), freeWaiterEntry_eq calmLeft]
    rfl
  · rw [byState (granted.trans_ne nofun) (cancelWaiter_granted granted), freeWaiterEntry_eq calmTaken]
    rfl
  · rw [byState (ended.trans_ne nofun) (cancelWaiter_ended ended), freeWaiterEntry_eq calmTaken]
    rfl

end Sys2Proof.Claims
end

section
/-! SUPPORT. The Link Port: what a Write Frame does with the bytes it receives, what a Read Frame sends, and the proofs
of O4 and O5. -/

namespace Sys2Proof.Machine

open Sys2Proof.Claims

/-! ### Bits on SDO (R157) -/

/-- The bits of a byte counted from its most significant one are its bits 7 to 0. -/
theorem leadingBits_eq (b : Byte) (cut : Fin 8) : leadingBits b cut = firstBits b cut := by
  have bits : firstBits b cut = ((List.range 8).map (fun k => b.getMsbD k)).take cut := rfl
  rw [bits, ← List.map_take, List.take_range, Nat.min_eq_left cut.isLt.le, leadingBits]

theorem shiftOut_eq (s : State) (sent : List Byte) (clocked : Nat) (cut : Fin 8) :
    s.shiftOut sent ⟨clocked, cut⟩ =
      { s with
        sdo := s.statusByte :: ((sent ++ List.replicate clocked 0#8).take clocked)
        sdoBits := firstBits (sent.getD clocked 0#8) cut } := by
  rw [State.shiftOut, leadingBits_eq]

/-! ### Write Frame (R159, R160) -/

theorem receiveFrame_full {s : State} (full : 16 ≤ s.fifo.length) (sdi : List Byte) :
    s.receiveFrame sdi = { s with overrun := true } :=
  if_pos full

/-- Fewer than two bytes hold no first word, and so give no length. -/
theorem receiveFrame_noWord {s : State} (room : s.fifo.length < 16) {sdi : List Byte} (short : sdi.length < 2) :
    s.receiveFrame sdi = { s with framing := true } := by
  have noWord : wordsOf sdi = [] := List.eq_nil_of_length_eq_zero (by rw [length_wordsOf]; omega)
  rw [State.receiveFrame, if_neg (Nat.not_le.mpr room), noWord]

/-- The length is the second byte, and the words that the bytes fill are fewer than it where the bytes are fewer than
twice as many. -/
theorem receiveFrame_wrongLength {s : State} (room : s.fifo.length < 16) {hi lo : Byte} {more : List Byte}
    (wrong : lo.toNat < 2 ∨ 40 < lo.toNat ∨ (hi :: lo :: more).length < 2 * lo.toNat) :
    s.receiveFrame (hi :: lo :: more) = { s with framing := true } := by
  have words : wordsOf (hi :: lo :: more) = joinBytes hi lo :: wordsOf more := rfl
  have length : lengthOf (joinBytes hi lo) = lo.toNat := congrArg BitVec.toNat (loByte_join hi lo)
  rw [State.receiveFrame, if_neg (Nat.not_le.mpr room), words]
  simp only [length]
  by_cases range : lo.toNat < 2 ∨ 40 < lo.toNat
  · rw [if_pos range]
  · have missing : (joinBytes hi lo :: wordsOf more).length < lo.toNat := by
      rw [← words, length_wordsOf]
      omega
    rw [if_neg range, if_pos missing]

/-- The bytes of a whole frame are read back as its words, and what follows them is cut away. -/
theorem receiveFrame_whole {s : State} (room : s.fifo.length < 16) {f : Frame} (least : 2 ≤ f.length)
    (most : f.length ≤ 40) (length : lengthOf (f.getD 0 0#16) = f.length) (more : List Byte) :
    s.receiveFrame (bytesOf f ++ more) = { s with fifo := s.fifo ++ [f] } := by
  obtain _ | ⟨w, ws⟩ := f
  · nomatch least
  have first : lengthOf w = (w :: ws).length := length
  have range : ¬((w :: ws).length < 2 ∨ 40 < (w :: ws).length) := by omega
  have complete : ¬(w :: (ws ++ wordsOf more)).length < (w :: ws).length := by simp
  rw [State.receiveFrame, if_neg (Nat.not_le.mpr room), wordsOf_bytesOf, List.cons_append]
  simp only [first]
  rw [if_neg range, if_neg complete, ← List.cons_append, List.take_left]

/-- With RESETn released, the bytes are received in the state whose SDO has carried the status byte and 00h. -/
theorem exec_writeFrame {s : State} (released : s.resetLow = false) (sdi : List Byte) (cut : Fin 8) :
    exec (.writeFrame ⟨sdi, cut⟩) s =
      .next
        ({ s with
            sdo := s.statusByte :: List.replicate sdi.length 0#8
            sdoBits := List.replicate cut.val false }.receiveFrame sdi) := by
  have taken : exec (.writeFrame ⟨sdi, cut⟩) s = .next (s.writeTransaction ⟨sdi, cut⟩) := by
    simp [exec, execWriteFrame, released]
  rw [taken, State.writeTransaction, shiftOut_nothing]
  rfl

/-! ### Read Frame (R161, R162) -/

theorem readTransaction_reply {s : State} {r : Frame} {rest : List Frame} (queue : s.replies = r :: rest)
    (clocked : Clocked) :
    s.readTransaction clocked = { s.shiftOut (bytesOf r) clocked with replies := rest } := by
  rw [State.readTransaction, queue]
  rfl

theorem readTransaction_empty {s : State} (queue : s.replies = []) (clocked : Clocked) :
    s.readTransaction clocked = s.shiftOut (bytesOf emptyFrame) clocked := by
  have kept : (s.shiftOut (bytesOf emptyFrame) clocked).replies = [] := queue
  rw [State.readTransaction, queue, List.headD_nil, List.tail_nil, ← kept]

theorem exec_readFrame {s : State} (released : s.resetLow = false) (clocked : Clocked) :
    exec (.readFrame clocked) s = .next (s.readTransaction clocked) := by
  simp [exec, execReadFrame, released]

end Sys2Proof.Machine

namespace Sys2Proof.Claims

open Sys2Proof.Machine

/-- Settles O4: what is sent on SDO leaves the FIFO as it was, so the room in it and the bytes received decide what the
transaction does, each clause by the rule for those bytes. -/
theorem writeFrameJoinsTheFifoOrSetsAFlag : Obligations.WriteFrameJoinsTheFifoOrSetsAFlag := by
  intro s sdi cut released sent bits
  let quiet : State := { s with sdo := sent, sdoBits := bits }
  have byBytes {t : State} (received : quiet.receiveFrame sdi = t) :
      exec (.writeFrame ⟨sdi, cut⟩) s = .next t :=
    (exec_writeFrame released sdi cut).trans (congrArg _ received)
  refine ⟨fun full => ?_, fun room short => ?_, fun hi lo more room split wrong => ?_,
    fun f more room split least most length => ?_⟩
  · exact byBytes (receiveFrame_full (s := quiet) full sdi)
  · exact byBytes (receiveFrame_noWord (s := quiet) room short)
  · subst split
    exact byBytes (receiveFrame_wrongLength (s := quiet) room wrong)
  · subst split
    exact byBytes (receiveFrame_whole (s := quiet) room least most length more)

/-- Settles O5: the reply in front, or the EMPTY frame where there is none, is what is shifted out. -/
theorem readFrameShiftsOutTheOldestReply : Obligations.ReadFrameShiftsOutTheOldestReply := by
  intro s clocked cut released
  refine ⟨fun r rest queue => ?_, fun queue => ?_⟩
  · rw [exec_readFrame released, readTransaction_reply queue, shiftOut_eq]
  · rw [exec_readFrame released, readTransaction_empty queue, shiftOut_eq]
    rfl

end Sys2Proof.Claims
end

section
/-! SUPPORT. The rules of the shared operations: figures summed over a table, what the lodging of a deadline and the
postings write, and how a holding leaves the counted states. -/

namespace Sys2Proof.Machine

open Sys2Proof.Claims

/-! ### Figures summed over a table -/

/-- A figure summed over the contents that a table lists. -/
def tableSum {α : Type} (g : α → Nat) (t : Table α) : Nat := (t.map (fun e => g e.2)).sum

section Sums

variable {α : Type} (g : α → Nat)

theorem tableSum_cons (e : Nat × α) (t : Table α) : tableSum g (e :: t) = g e.2 + tableSum g t := by
  simp [tableSum]

theorem tableSum_erase {t : Table α} (rising : TableRising t) (k : Nat) :
    tableSum g (tableErase t k) + (tableFind t k).elim 0 g = tableSum g t := by
  induction t with
  | nil => rfl
  | cons e t ih =>
    obtain ⟨j, w⟩ := e
    obtain ⟨above, rising⟩ := List.pairwise_cons.mp rising
    have ih := ih rising
    rcases eq_or_ne j k with rfl | other
    · rw [tableFind_of_below above] at ih
      have erased : tableErase ((j, w) :: t) j = tableErase t j := by simp [tableErase]
      have found : tableFind ((j, w) :: t) j = some w := by simp [tableFind]
      rw [erased, found, tableSum_cons, ← ih]
      exact Nat.add_comm _ _
    · have erased : tableErase ((j, w) :: t) k = (j, w) :: tableErase t k := by simp [tableErase, other]
      have found : tableFind ((j, w) :: t) k = tableFind t k := by simp [tableFind, other]
      rw [erased, found, tableSum_cons, tableSum_cons, ← ih]
      exact Nat.add_assoc _ _ _

theorem tableSum_insert {t : Table α} (rising : TableRising t) (k : Nat) (v : α) :
    tableSum g (tableInsert t k v) + (tableFind t k).elim 0 g = tableSum g t + g v := by
  induction t with
  | nil => simp [tableInsert, tableSum]
  | cons e t ih =>
    obtain ⟨j, w⟩ := e
    obtain ⟨above, rising⟩ := List.pairwise_cons.mp rising
    have ih := ih rising
    rcases Nat.lt_trichotomy k j with below | rfl | beyond
    · have absent : tableFind ((j, w) :: t) k = none :=
        tableFind_of_below fun e listed => by
          rcases List.mem_cons.mp listed with rfl | listed
          · exact below
          · exact below.trans (above e listed)
      have inserted : tableInsert ((j, w) :: t) k v = (k, v) :: (j, w) :: t := by simp [tableInsert, below]
      rw [inserted, absent, tableSum_cons, Option.elim_none, Nat.add_zero, Nat.add_comm]
    · have inserted : tableInsert ((k, w) :: t) k v = (k, v) :: t := by simp [tableInsert]
      have found : tableFind ((k, w) :: t) k = some w := by simp [tableFind]
      rw [inserted, found, tableSum_cons, tableSum_cons]
      simp only [Option.elim_some]
      omega
    · have inserted : tableInsert ((j, w) :: t) k v = (j, w) :: tableInsert t k v := by
        simp [tableInsert, Nat.lt_asymm beyond, Nat.ne_of_gt beyond]
      have found : tableFind ((j, w) :: t) k = tableFind t k := by simp [tableFind, Nat.ne_of_lt beyond]
      rw [inserted, found, tableSum_cons, tableSum_cons]
      omega

/-- A write under a number takes the figure of what stood there out of the sum and adds that of the new contents. -/
theorem tableSum_put [DecidableEq α] {d : α} (zero : g d = 0) {t : Table α} (rising : TableRising t) (k : Nat)
    (v : α) : tableSum g (tablePut d t k v) + g (tableGet d t k) = tableSum g t + g v := by
  have before : (tableFind t k).elim 0 g = g (tableGet d t k) := by
    rw [tableGet]
    cases tableFind t k <;> simp [zero]
  rw [← before, tablePut]
  split
  · rename_i isDefault
    rw [tableSum_erase g rising, isDefault, zero, Nat.add_zero]
  · exact tableSum_insert g rising k v

theorem length_filter_eq_tableSum (test : α → Bool) (t : Table α) :
    (t.filter (fun e => test e.2)).length = tableSum (fun x => if test x then 1 else 0) t := by
  induction t with
  | nil => rfl
  | cons e t ih => by_cases passes : test e.2 <;> simp [tableSum_cons, passes, ih, Nat.add_comm]

theorem sum_filter_eq_tableSum (test : α → Bool) (t : Table α) :
    ((t.filter (fun e => test e.2)).map (fun e => g e.2)).sum = tableSum (fun x => if test x then g x else 0) t := by
  induction t with
  | nil => rfl
  | cons e t ih => by_cases passes : test e.2 <;> simp [tableSum_cons, passes, ih]

theorem tableSum_eq_zero {t : Table α} (zero : ∀ e ∈ t, g e.2 = 0) : tableSum g t = 0 := by
  rw [tableSum, List.sum_eq_zero_iff_forall_eq_nat]
  intro n listed
  obtain ⟨e, inTable, rfl⟩ := List.mem_map.mp listed
  exact zero e inTable

theorem le_tableSum {t : Table α} {e : Nat × α} (listed : e ∈ t) : g e.2 ≤ tableSum g t :=
  List.le_sum_of_mem (List.mem_map_of_mem listed)

/-- What stands under a number has a figure no larger than the sum. -/
theorem tableGet_le_tableSum {d : α} (zero : g d = 0) (t : Table α) (k : Nat) :
    g (tableGet d t k) ≤ tableSum g t := by
  rw [tableGet]
  cases found : tableFind t k with
  | none => simp [zero]
  | some v => exact le_tableSum g (mem_of_tableFind found)

end Sums

/-- Some listed contents pass a test exactly where the contents of some number do. -/
theorem any_table_iff {α : Type} {t : Table α} (rising : TableRising t) (d : α) {test : α → Bool}
    (unlisted : test d = false) : t.any (fun e => test e.2) = true ↔ ∃ i, test (tableGet d t i) = true := by
  rw [List.any_eq_true]
  constructor
  · rintro ⟨⟨i, v⟩, listed, passes⟩
    refine ⟨i, ?_⟩
    rwa [tableGet, tableFind_of_mem rising listed]
  · rintro ⟨i, passes⟩
    rw [tableGet] at passes
    cases found : tableFind t i with
    | none => simp [found, unlisted] at passes
    | some v => exact ⟨(i, v), mem_of_tableFind found, by simpa [found] using passes⟩

/-! ### Deadlines lodged (R65, R107, R131, R132) -/

/-- Of a deadline that is lodged, what is reached at once: the deadline, where it lies at or before site time. -/
def dueNow (now : Nat) (d : Option Deadline) : List Deadline := d.toList.filter (fun d => d.second ≤ now)

theorem dueNow_none (now : Nat) : dueNow now none = [] := rfl

theorem dueNow_ahead {now : Nat} {d : Deadline} (ahead : now < d.second) : dueNow now (some d) = [] := by
  simp [dueNow, ahead]

theorem dueNow_due {now : Nat} {d : Deadline} (due : d.second ≤ now) : dueNow now (some d) = [d] := by
  simp [dueNow, due]

theorem lodge_eq (s : State) (d : Deadline) :
    s.lodge d = { s with atOnce := s.atOnce ++ dueNow s.siteTime (some d) } := by
  by_cases due : d.second ≤ s.siteTime
  · rw [lodge_due due, dueNow_due due]
  · rw [lodge_ahead (Nat.lt_of_not_le due), dueNow_ahead (Nat.lt_of_not_le due), List.append_nil]

/-- The placing of a holding entry: its old deadline is withdrawn, and its new one, if it has one, is lodged. -/
theorem placeHolding_eq (s : State) (i : Nat) (h : Holding) :
    s.placeHolding i h =
      { s with
        reached := s.reached.filter (fun d => !d.ofHolding i)
        atOnce := s.atOnce.filter (fun d => !d.ofHolding i) ++ dueNow s.siteTime (holdingDeadline (i, h))
        holdings := tablePut Holding.initial s.holdings i h } := by
  rw [State.placeHolding, holdingDeadline]
  cases h.state.deadlineKind with
  | none => simp [dueNow_none, State.withdraw, State.setHolding]
  | some k => simp [lodge_eq, State.withdraw, State.setHolding]

theorem placeWaiter_eq (s : State) (j : Nat) (w : Waiter) :
    s.placeWaiter j w =
      { s with
        reached := s.reached.filter (fun d => !d.ofWaiter j)
        atOnce := s.atOnce.filter (fun d => !d.ofWaiter j) ++ dueNow s.siteTime (waiterDeadline (j, w))
        waiters := tablePut Waiter.initial s.waiters j w } := by
  rw [State.placeWaiter, waiterDeadline]
  by_cases waits : w.state = .waiting
  · simp [waits, lodge_eq, State.withdraw, State.setWaiter]
  · simp [waits, dueNow_none, State.withdraw, State.setWaiter]

/-- A feature record as it is placed: its end instant is lodged where it has one (R136). -/
def Feature.lodged (f : Feature) : Feature := { f with endLodged := f.endInstant.isSome }

theorem placeFeature_eq (s : State) (code : Nat) (f : Feature) :
    s.placeFeature code f =
      { s with
        reached := s.reached.filter (fun d => !d.ofFeature code)
        atOnce := s.atOnce.filter (fun d => !d.ofFeature code) ++ dueNow s.siteTime (featureDeadline (code, f.lodged))
        features := tableInsert s.features code f.lodged } := by
  rw [State.placeFeature, featureDeadline, Feature.lodged]
  cases ending : f.endInstant with
  | none => simp [dueNow_none, State.withdraw, State.setFeature]
  | some e =>
    have same : Feature.endInstant { f with endLodged := true } = some e := ending
    simp [same, lodge_eq, State.withdraw, State.setFeature]

section Placed

variable (s : State) (i j k code : Nat) (h : Holding) (w : Waiter) (f : Feature)

@[simp] theorem holding_placeHolding :
    (s.placeHolding i h).holding k = if k = i then h else s.holding k := by
  rw [placeHolding_eq]
  exact tableGet_put ..

@[simp] theorem waiter_placeHolding : (s.placeHolding i h).waiter k = s.waiter k := by rw [placeHolding_eq]; rfl
@[simp] theorem pool_placeHolding : (s.placeHolding i h).pool k = s.pool k := by rw [placeHolding_eq]; rfl
@[simp] theorem feature_placeHolding : (s.placeHolding i h).feature k = s.feature k := by rw [placeHolding_eq]; rfl
@[simp] theorem featureOf_placeHolding : (s.placeHolding i h).featureOf k = s.featureOf k := by
  rw [placeHolding_eq]; rfl
@[simp] theorem reserveSum_placeHolding : (s.placeHolding i h).reserveSum k = s.reserveSum k := by
  rw [placeHolding_eq]; rfl
@[simp] theorem placeHolding_holdings :
    (s.placeHolding i h).holdings = tablePut Holding.initial s.holdings i h := by rw [placeHolding_eq]
@[simp] theorem placeHolding_waiters : (s.placeHolding i h).waiters = s.waiters := by rw [placeHolding_eq]
@[simp] theorem placeHolding_pools : (s.placeHolding i h).pools = s.pools := by rw [placeHolding_eq]
@[simp] theorem placeHolding_features : (s.placeHolding i h).features = s.features := by rw [placeHolding_eq]
@[simp] theorem placeHolding_allotments : (s.placeHolding i h).allotments = s.allotments := by rw [placeHolding_eq]
@[simp] theorem placeHolding_drained : (s.placeHolding i h).drained = s.drained := by rw [placeHolding_eq]

@[simp] theorem waiter_placeWaiter : (s.placeWaiter j w).waiter k = if k = j then w else s.waiter k := by
  rw [placeWaiter_eq]
  exact tableGet_put ..

@[simp] theorem holding_placeWaiter : (s.placeWaiter j w).holding k = s.holding k := by rw [placeWaiter_eq]; rfl
@[simp] theorem pool_placeWaiter : (s.placeWaiter j w).pool k = s.pool k := by rw [placeWaiter_eq]; rfl
@[simp] theorem feature_placeWaiter : (s.placeWaiter j w).feature k = s.feature k := by rw [placeWaiter_eq]; rfl
@[simp] theorem featureOf_placeWaiter : (s.placeWaiter j w).featureOf k = s.featureOf k := by rw [placeWaiter_eq]; rfl
@[simp] theorem reserveSum_placeWaiter : (s.placeWaiter j w).reserveSum k = s.reserveSum k := by
  rw [placeWaiter_eq]; rfl
@[simp] theorem placeWaiter_holdings : (s.placeWaiter j w).holdings = s.holdings := by rw [placeWaiter_eq]
@[simp] theorem placeWaiter_waiters : (s.placeWaiter j w).waiters = tablePut Waiter.initial s.waiters j w := by
  rw [placeWaiter_eq]
@[simp] theorem placeWaiter_pools : (s.placeWaiter j w).pools = s.pools := by rw [placeWaiter_eq]
@[simp] theorem placeWaiter_features : (s.placeWaiter j w).features = s.features := by rw [placeWaiter_eq]
@[simp] theorem placeWaiter_allotments : (s.placeWaiter j w).allotments = s.allotments := by rw [placeWaiter_eq]
@[simp] theorem placeWaiter_drained : (s.placeWaiter j w).drained = s.drained := by rw [placeWaiter_eq]

@[simp] theorem feature_placeFeature :
    (s.placeFeature code f).feature k = if k = code then some f.lodged else s.feature k := by
  rw [placeFeature_eq]
  exact tableFind_insert ..

@[simp] theorem holding_placeFeature : (s.placeFeature code f).holding k = s.holding k := by rw [placeFeature_eq]; rfl
@[simp] theorem waiter_placeFeature : (s.placeFeature code f).waiter k = s.waiter k := by rw [placeFeature_eq]; rfl
@[simp] theorem pool_placeFeature : (s.placeFeature code f).pool k = s.pool k := by rw [placeFeature_eq]; rfl
@[simp] theorem reserveSum_placeFeature : (s.placeFeature code f).reserveSum k = s.reserveSum k := by
  rw [placeFeature_eq]; rfl
@[simp] theorem placeFeature_holdings : (s.placeFeature code f).holdings = s.holdings := by rw [placeFeature_eq]
@[simp] theorem placeFeature_waiters : (s.placeFeature code f).waiters = s.waiters := by rw [placeFeature_eq]
@[simp] theorem placeFeature_pools : (s.placeFeature code f).pools = s.pools := by rw [placeFeature_eq]
@[simp] theorem placeFeature_features :
    (s.placeFeature code f).features = tableInsert s.features code f.lodged := by rw [placeFeature_eq]
@[simp] theorem placeFeature_allotments : (s.placeFeature code f).allotments = s.allotments := by rw [placeFeature_eq]
@[simp] theorem placeFeature_drained : (s.placeFeature code f).drained = s.drained := by rw [placeFeature_eq]

/-- The fields of the frame are those of `still_fields`; these two are read most often. -/
@[simp] theorem placeHolding_siteTime : (s.placeHolding i h).siteTime = s.siteTime := by rw [placeHolding_eq]
@[simp] theorem placeHolding_service : (s.placeHolding i h).service = s.service := by rw [placeHolding_eq]
@[simp] theorem placeWaiter_siteTime : (s.placeWaiter j w).siteTime = s.siteTime := by rw [placeWaiter_eq]
@[simp] theorem placeWaiter_service : (s.placeWaiter j w).service = s.service := by rw [placeWaiter_eq]

end Placed

/-! ### Accounts (R57, R59) -/

section Posted

variable (s : State) (pool project c evt k : Nat) (h : Holding)

@[simp] theorem pool_leaveQueue (j : Nat) :
    (s.leaveQueue pool j).pool k =
      if k = pool then { s.pool pool with queue := (s.pool pool).queue.filter (fun m => m != j) } else s.pool k :=
  pool_setPool ..

@[simp] theorem pool_joinQueue (j cls : Nat) :
    (s.joinQueue pool j cls).pool k =
      if k = pool then { s.pool pool with queue := s.joined (s.pool pool).queue j cls } else s.pool k :=
  pool_setPool ..

@[simp] theorem pool_recomputeOver_if :
    (s.recomputeOver pool evt).pool k =
      if k = pool then withOver (s.pool pool) (s.reserveSum pool) evt else s.pool k := by
  rw [pool_recomputeOver, recomputed_eq_withOver]

@[simp] theorem pool_unlinger (tokens : Nat) :
    (s.unlinger pool tokens).pool k =
      if k = pool then { s.pool pool with lingering := (s.pool pool).lingering - tokens } else s.pool k :=
  pool_setPool ..

@[simp] theorem pool_charge :
    (s.charge pool project c evt).pool k =
      if k = pool then chargedPool (s.pool pool) c (s.reserveSum pool) evt else s.pool k := by
  simp only [State.charge, pool_recomputeOver_if, reserveSum_postUsed, pool_postUsed, pool_setPool, reserveSum_setPool]
  by_cases same : k = pool <;> simp [same, chargedPool]

@[simp] theorem pool_refund :
    (s.refund h evt).pool k =
      if k = h.pool then refundedPool (s.pool h.pool) h.state h.tokens (s.reserveSum h.pool) evt else s.pool k := by
  simp only [State.refund, pool_recomputeOver_if, reserveSum_postUsed, pool_postUsed, pool_setPool, reserveSum_setPool]
  by_cases same : k = h.pool <;> simp [same, refundedPool]

@[simp] theorem holding_charge : (s.charge pool project c evt).holding k = s.holding k := rfl
@[simp] theorem waiter_charge : (s.charge pool project c evt).waiter k = s.waiter k := rfl
@[simp] theorem feature_charge : (s.charge pool project c evt).feature k = s.feature k := rfl
@[simp] theorem featureOf_charge : (s.charge pool project c evt).featureOf k = s.featureOf k := rfl
@[simp] theorem holding_refund : (s.refund h evt).holding k = s.holding k := rfl
@[simp] theorem waiter_refund : (s.refund h evt).waiter k = s.waiter k := rfl
@[simp] theorem feature_refund : (s.refund h evt).feature k = s.feature k := rfl
@[simp] theorem featureOf_refund : (s.refund h evt).featureOf k = s.featureOf k := rfl

theorem postUsed_allotments (u : Nat → Nat) :
    (s.postUsed project pool u).allotments = postedAllotments s.allotments project pool u := by
  simp [State.postUsed, State.changeAllotment, postedAllotments, Allotment.keyed]

@[simp] theorem charge_allotments :
    (s.charge pool project c evt).allotments = postedAllotments s.allotments project pool (fun used => used + c) :=
  postUsed_allotments s pool project (fun used => used + c)

@[simp] theorem refund_allotments :
    (s.refund h evt).allotments = postedAllotments s.allotments h.project h.pool (fun used => used - h.tokens) :=
  postUsed_allotments s h.pool h.project (fun used => used - h.tokens)

@[simp] theorem reserveSum_charge : (s.charge pool project c evt).reserveSum k = s.reserveSum k :=
  reserveSum_postUsed s project pool k (fun used => used + c)

@[simp] theorem reserveSum_refund : (s.refund h evt).reserveSum k = s.reserveSum k :=
  reserveSum_postUsed s h.project h.pool k (fun used => used - h.tokens)

end Posted

/-! ### The drain report (R20, R70) -/

theorem featureHeld_iff {s : State} (rising : TableRising s.holdings) (code : Nat) :
    s.featureHeld code = true ↔ Held s code := by
  rw [State.featureHeld, any_table_iff (test := fun h : Holding => h.state.counted && h.feature == code) rising
    Holding.initial rfl]
  simp [Held, State.holding]

theorem featureWaited_iff {s : State} (rising : TableRising s.waiters) (code : Nat) :
    s.featureWaited code = true ↔ Waited s code := by
  rw [State.featureWaited, any_table_iff (test := fun w : Waiter => w.state == .waiting && w.feature == code) rising
    Waiter.initial rfl]
  simp [Waited, State.waiter]

/-- A drain report changes nothing, or drains a RETIRING feature that has no counted holding left. -/
theorem drainReport_cases (s : State) (code evt : Nat) :
    s.drainReport code evt = s ∨
      ((∃ f, s.feature code = some f ∧ f.state = .retiring) ∧ s.featureHeld code = false
        ∧ s.drainReport code evt = s.drain code evt) := by
  rw [State.drainReport]
  cases found : s.feature code with
  | none => exact .inl rfl
  | some f =>
    by_cases drains : f.state = .retiring ∧ s.featureHeld code = false
    · exact .inr ⟨⟨f, rfl, drains.1⟩, drains.2, if_pos drains⟩
    · exact .inl (if_neg drains)

theorem feature_drain (s : State) (code evt k : Nat) :
    (s.drain code evt).feature k = if k = code then none else s.feature k := tableFind_erase ..

/-! ### Holdings that leave the counted states, and waiters that leave their queue -/

/-- A counted holding leaves its entry to other contents: the deadline is withdrawn, the tokens are refunded and the
drain report is made (R59, R70). It is what a lapse and the freeing of a counted entry have in common. -/
def State.uncount (s : State) (i : Nat) (x : Holding) (evt : Nat) : State :=
  ((s.placeHolding i x).refund (s.holding i) evt).drainReport (s.holding i).feature evt

/-- A holding as it stands once it has lapsed (R87, R100). -/
def Holding.lapsedAs (h : Holding) (reason : HoldingEnd) (evt : Nat) : Holding :=
  { h with state := .lapsed, refs := 0, deadline := 0, endReason := some reason, eventTime := evt }

theorem lapse_eq (s : State) (i : Nat) (reason : HoldingEnd) (evt : Nat) :
    s.lapse i reason evt = (s.uncount i ((s.holding i).lapsedAs reason evt) evt).scan (s.holding i).pool evt := rfl

theorem endHolding_eq (s : State) (i evt : Nat) :
    s.endHolding i evt =
      (s.uncount i (Holding.freeEntry (nextGen (s.holding i).gen)) evt).entryFreed (some (s.holding i).pool) evt := rfl

/-- What may stand in the entry of a holding that has left the counted states: a LAPSED or FREE record without
references, of the same generation or the next. -/
structure Holding.EndsAs (h x : Holding) : Prop where
  state : x.state = .lapsed ∨ x.state = .free
  refs : x.refs = 0
  gen : x.gen = h.gen ∨ x.gen = nextGen h.gen

theorem Holding.endsAs_lapsed (h : Holding) (reason : HoldingEnd) (evt : Nat) : h.EndsAs (h.lapsedAs reason evt) :=
  ⟨.inl rfl, rfl, .inl rfl⟩

theorem Holding.endsAs_free (h : Holding) : h.EndsAs (Holding.freeEntry (nextGen h.gen)) :=
  ⟨.inr rfl, rfl, .inr rfl⟩

theorem Holding.EndsAs.uncounted {h x : Holding} (ends : h.EndsAs x) : x.state.counted = false := by
  rcases ends.state with state | state <;> rw [state] <;> rfl

theorem deadlineKind_none_iff (st : HoldingState) : st.deadlineKind = none ↔ st.counted = false := by
  cases st <;> simp [HoldingState.deadlineKind, HoldingState.counted]

/-- A waiter leaves the queue of a pool, and other contents stand in its entry (R110). -/
def State.dequeue (s : State) (pool j : Nat) (w : Waiter) : State := (s.leaveQueue pool j).placeWaiter j w

/-- A waiter as it stands once it has ended (R120, R121). -/
def Waiter.endedAs (w : Waiter) (reason : WaiterEnd) (evt : Nat) : Waiter :=
  { w with state := .ended, deadline := 0, endReason := some reason, eventTime := evt }

theorem endWaiter_eq (s : State) (j : Nat) (reason : WaiterEnd) (evt : Nat) :
    s.endWaiter j reason evt =
      s.dequeue (s.featureOf (s.waiter j).feature).pool j ((s.waiter j).endedAs reason evt) := rfl

/-- A waiter as it stands once it has been granted a holding (R117). -/
def Waiter.grantedAs (w : Waiter) (path : Path) (i gen evt : Nat) : Waiter :=
  { w with state := .granted, deadline := 0, handleIndex := i, handleGen := gen, merged := path.joins, eventTime := evt }

theorem grantWaiter_eq (s : State) (j : Nat) (f : Feature) (path : Path) (cost i evt : Nat) :
    s.grantWaiter j f path cost i evt =
      (s.grantPath f (s.waiter j).asking path cost i evt).dequeue f.pool j
        ((s.waiter j).grantedAs path i
          ((s.grantPath f (s.waiter j).asking path cost i evt).leaveQueue f.pool j |>.holding i).gen evt) := rfl

section Dequeued

variable (s : State) (pool j k : Nat) (w : Waiter)

@[simp] theorem waiter_dequeue : (s.dequeue pool j w).waiter k = if k = j then w else s.waiter k := by
  simp [State.dequeue]

@[simp] theorem holding_dequeue : (s.dequeue pool j w).holding k = s.holding k := by simp [State.dequeue]
@[simp] theorem feature_dequeue : (s.dequeue pool j w).feature k = s.feature k := by simp [State.dequeue]
@[simp] theorem featureOf_dequeue : (s.dequeue pool j w).featureOf k = s.featureOf k := by simp [State.dequeue]
@[simp] theorem reserveSum_dequeue : (s.dequeue pool j w).reserveSum k = s.reserveSum k := by simp [State.dequeue]

@[simp] theorem pool_dequeue :
    (s.dequeue pool j w).pool k =
      if k = pool then { s.pool pool with queue := (s.pool pool).queue.filter (fun m => m != j) } else s.pool k := by
  simp [State.dequeue]

@[simp] theorem dequeue_holdings : (s.dequeue pool j w).holdings = s.holdings := by simp [State.dequeue]
@[simp] theorem dequeue_features : (s.dequeue pool j w).features = s.features := by simp [State.dequeue]
@[simp] theorem dequeue_allotments : (s.dequeue pool j w).allotments = s.allotments := by simp [State.dequeue]
@[simp] theorem dequeue_waiters : (s.dequeue pool j w).waiters = tablePut Waiter.initial s.waiters j w := by
  simp [State.dequeue]

@[simp] theorem still_dequeue : (s.dequeue pool j w).still = s.still := by simp [State.dequeue]

end Dequeued

@[simp] theorem still_uncount (s : State) (i : Nat) (x : Holding) (evt : Nat) : (s.uncount i x evt).still = s.still := by
  simp [State.uncount]

end Sys2Proof.Machine
end

section
/-! SUPPORT. What a command can do: the acts of the commands, each with what the model has checked before it, and what
follows them within the step. Every invariant of Safety is a property that each act and each consequence keeps. -/

namespace Sys2Proof.Machine

open Sys2Proof.Claims

/-! ### Deadlines that records carry -/

/-- A record carries a deadline: the holding or waiter in the entry is in the state that has it, or the feature has its
end instant lodged (R65, R107, R136). -/
def State.Carries (s : State) (d : Deadline) : Prop :=
  ((s.holding d.record).state.deadlineKind = some d.kind ∧ (s.holding d.record).deadline = d.second)
  ∨ (d.kind = .waitDeadline ∧ (s.waiter d.record).state = .waiting ∧ (s.waiter d.record).deadline = d.second)
  ∨ (d.kind = .featureEnd ∧ ∃ f, s.feature d.record = some f ∧ f.endLodged = true ∧ f.endInstant = some d.second)

theorem holdingDeadline_eq_some (e : Nat × Holding) (d : Deadline) :
    holdingDeadline e = some d ↔ e.1 = d.record ∧ e.2.state.deadlineKind = some d.kind ∧ e.2.deadline = d.second := by
  obtain ⟨second, kind, record⟩ := d
  simp only [holdingDeadline, Option.map_eq_some_iff, Deadline.mk.injEq]
  constructor
  · rintro ⟨k, known, rfl, rfl, rfl⟩
    exact ⟨rfl, known, rfl⟩
  · rintro ⟨rfl, known, rfl⟩
    exact ⟨kind, known, rfl, rfl, rfl⟩

theorem waiterDeadline_eq_some (e : Nat × Waiter) (d : Deadline) :
    waiterDeadline e = some d ↔
      e.1 = d.record ∧ d.kind = .waitDeadline ∧ e.2.state = .waiting ∧ e.2.deadline = d.second := by
  obtain ⟨second, kind, record⟩ := d
  by_cases waits : e.2.state = .waiting
  · simp only [waiterDeadline, waits, if_true, Option.some.injEq, Deadline.mk.injEq]
    tauto
  · simp [waiterDeadline, waits]

theorem featureDeadline_eq_some (e : Nat × Feature) (d : Deadline) :
    featureDeadline e = some d ↔
      e.1 = d.record ∧ d.kind = .featureEnd ∧ e.2.endLodged = true ∧ e.2.endInstant = some d.second := by
  obtain ⟨second, kind, record⟩ := d
  by_cases lodged : e.2.endLodged = true
  · simp only [featureDeadline, lodged, if_true, Option.map_eq_some_iff, Deadline.mk.injEq]
    constructor
    · rintro ⟨k, ending, rfl, rfl, rfl⟩
      exact ⟨rfl, rfl, trivial, ending⟩
    · rintro ⟨rfl, rfl, -, ending⟩
      exact ⟨second, ending, rfl, rfl, rfl⟩
  · simp [featureDeadline, lodged]

/-- A deadline that the pairs of a table carry is carried by what stands under its record. -/
theorem mem_filterMap_table {α : Type} {t : Table α} (rising : TableRising t) {carried : Nat × α → Option Deadline}
    {test : α → Deadline → Prop} (spec : ∀ e d, carried e = some d ↔ e.1 = d.record ∧ test e.2 d) (d : Deadline) :
    d ∈ t.filterMap carried ↔ ∃ v, tableFind t d.record = some v ∧ test v d := by
  simp only [List.mem_filterMap, spec]
  constructor
  · rintro ⟨⟨i, v⟩, listed, rfl, carries⟩
    exact ⟨v, tableFind_of_mem rising listed, carries⟩
  · rintro ⟨v, found, carries⟩
    exact ⟨(d.record, v), mem_of_tableFind found, rfl, carries⟩

theorem exists_tableFind_iff {α : Type} {t : Table α} {i : Nat} (d : α) {test : α → Prop} (unlisted : ¬test d) :
    (∃ v, tableFind t i = some v ∧ test v) ↔ test (tableGet d t i) := by
  rw [tableGet]
  cases tableFind t i <;> simp [unlisted]

/-- The lodged deadlines are those that the records carry. -/
theorem mem_deadlines_iff {s : State} (tables : TablesOk s) (d : Deadline) : d ∈ s.deadlines ↔ s.Carries d := by
  have holdings := mem_filterMap_table tables.holdings_canonical.1
    (test := fun h d => h.state.deadlineKind = some d.kind ∧ h.deadline = d.second) holdingDeadline_eq_some d
  have waiters := mem_filterMap_table tables.waiters_canonical.1
    (test := fun w d => d.kind = .waitDeadline ∧ w.state = .waiting ∧ w.deadline = d.second) waiterDeadline_eq_some d
  have features := mem_filterMap_table tables.features_rising
    (test := fun f d => d.kind = .featureEnd ∧ f.endLodged = true ∧ f.endInstant = some d.second)
    featureDeadline_eq_some d
  rw [exists_tableFind_iff Holding.initial (by simp [Holding.initial, Holding.freeEntry, HoldingState.deadlineKind])]
    at holdings
  rw [exists_tableFind_iff Waiter.initial (by simp [Waiter.initial, Waiter.freeEntry])] at waiters
  rw [State.deadlines, List.mem_append, List.mem_append, holdings, waiters, features, or_assoc]
  simp only [State.Carries, State.holding, State.waiter, State.feature]
  refine or_congr Iff.rfl (or_congr Iff.rfl ⟨?_, ?_⟩)
  · rintro ⟨f, found, kind, lodged, ending⟩
    exact ⟨kind, f, found, lodged, ending⟩
  · rintro ⟨kind, f, found, lodged, ending⟩
    exact ⟨f, found, kind, lodged, ending⟩

/-! ### What the owner of a deadline does of itself (R133) -/

/-- What the owner of a deadline does before any scan or pass: nothing, where no record carries it; a holding leaves the
counted states; a waiter ends; or a feature's end instant leaves the set and its waiters end. -/
inductive Handled (d : Deadline) (s : State) : State → Prop
  | nothing : ¬s.Carries d → Handled d s s
  | holding {x : Holding} {evt : Nat} : (s.holding d.record).state.deadlineKind = some d.kind →
      (s.holding d.record).EndsAs x → Handled d s (s.uncount d.record x evt)
  | waiter {reason : WaiterEnd} {evt : Nat} : d.kind = .waitDeadline → (s.waiter d.record).state = .waiting →
      Handled d s (s.endWaiter d.record reason evt)
  | feature {f : Feature} {evt : Nat} : d.kind = .featureEnd → s.feature d.record = some f →
      Handled d s ((s.setFeature d.record { f with endLodged := false }).endFeatureWaiters d.record .expired evt)

/-- What the model knows of the path, the cost and the entry when it makes or joins a holding (R77, R50, R71). -/
structure Chosen (s : State) (f : Feature) (a : Asking) (path : Path) (cost i : Nat) : Prop where
  known : s.feature a.feature = some f
  byKey : s.choosePath f.sharing a = path
  priced : s.pathCost f.weight a.seats path = cost
  entry : s.pathEntry path = some i

/-- A scan grants a WAITING waiter whose path, cost and entry it has judged, in an OPEN service (R113 to R117). -/
structure Grants (s : State) (j : Nat) (f : Feature) (path : Path) (cost i : Nat) : Prop where
  opened : s.service = .opened
  waits : (s.waiter j).state = .waiting
  chosen : Chosen s f (s.waiter j).asking path cost i

theorem Grants.of_visit {s : State} {j : Nat} {f : Feature} {path : Path} {cost i : Nat} (opened : s.service = .opened)
    (visit : s.visit j = .grant f path cost i) : Grants s j f path cost i := by
  simp only [State.visit] at visit
  split at visit
  · cases visit
  rename_i g known
  split_ifs at visit with notWaiting
  split at visit
  · cases visit
  rename_i entry
  cases visit
  exact ⟨opened, not_not.mp notWaiting, known, rfl, rfl, entry⟩

/-! ### What follows within a step -/

/-- What can follow within a step: the entry-starved mark moves, a scan grants a waiter, or a deadline that was reached
at once is taken and its owner acts. -/
inductive Follows : State → State → Prop
  | done (s : State) : Follows s s
  | marks {s t : State} (mark : Bool) : Follows { s with starved := mark } t → Follows s t
  | grants {s t : State} {j : Nat} {f : Feature} {path : Path} {cost i : Nat} (evt : Nat) : Grants s j f path cost i →
      Follows (s.grantWaiter j f path cost i evt) t → Follows s t
  | handles {s u t : State} {d : Deadline} (n : Nat) : d ∈ s.atOnce →
      Handled d { s with atOnce := s.atOnce.erase d, choices := n } u → Follows u t → Follows s t

theorem Follows.trans {s t u : State} (first : Follows s t) (second : Follows t u) : Follows s u := by
  induction first with
  | done s => exact second
  | marks mark _ ih => exact .marks mark (ih second)
  | grants evt grants _ ih => exact .grants evt grants (ih second)
  | handles n due handled _ ih => exact .handles n due handled (ih second)

theorem service_grantWaiter (s : State) (j : Nat) (f : Feature) (path : Path) (cost i evt : Nat) :
    (s.grantWaiter j f path cost i evt).service = s.service := by
  obtain ⟨-, -, -, -, -, -, -, -, service, -⟩ := still_fields (still_grantWaiter s i j evt f path cost)
  exact service

theorem follows_scanWalk (evt : Nat) (queue : List Nat) {s : State} (opened : s.service = .opened) :
    Follows s (scanWalk evt queue s) := by
  induction queue generalizing s with
  | nil => exact .done s
  | cons j rest ih =>
    rw [scanWalk]
    split
    · exact ih opened
    · exact .done s
    · exact .marks true (.done _)
    · rename_i f path cost i visit
      refine .grants evt (.of_visit opened visit) (ih ?_)
      rw [service_grantWaiter, opened]

theorem follows_scan (s : State) (pool evt : Nat) : Follows s (s.scan pool evt) := by
  rw [State.scan]
  split
  · rename_i asked
    exact follows_scanWalk evt _ asked.1
  · exact .done s

/-- Of some deadlines that are to be handled at once, one is taken. -/
theorem takeAmong_some {s t : State} {ds : List Deadline} {d : Deadline} (took : s.takeAmong ds = some (d, t)) :
    d ∈ ds ∧ ∃ n, t = { s with atOnce := s.atOnce.erase d, choices := n } := by
  unfold State.takeAmong at took
  split at took
  · cases took
  · cases took
    exact ⟨List.mem_singleton_self d, s.choices, rfl⟩
  · rename_i e es _
    cases took
    have inside : Config.tieChoice s.choices % (es.length + 1) < (e :: es).length :=
      Nat.mod_lt _ (Nat.succ_pos _)
    refine ⟨?_, s.choices + 1, rfl⟩
    rw [List.getD_eq_getElem _ _ inside]
    exact List.getElem_mem inside

theorem mem_of_earliest {ds : List Deadline} {d : Deadline} (first : d ∈ earliest ds) : d ∈ ds :=
  List.mem_of_mem_filter first

theorem follows_handleLoop {take : State → Option (Deadline × State)} {act : State → Deadline → State}
    (taking : ∀ s d t, take s = some (d, t) →
      d ∈ s.atOnce ∧ ∃ n, t = { s with atOnce := s.atOnce.erase d, choices := n })
    (acting : ∀ s d t, take s = some (d, t) → ∃ u, Handled d t u ∧ Follows u (act t d)) (n : Nat) (s : State) :
    Follows s (handleLoop take act n s) := by
  induction n generalizing s with
  | zero => exact .done s
  | succ n ih =>
    rw [handleLoop]
    split
    · exact .done s
    · rename_i d t took
      obtain ⟨due, m, rfl⟩ := taking s d t took
      obtain ⟨u, handled, follows⟩ := acting s d _ took
      exact .handles m due handled (follows.trans (ih _))

theorem carries_lease {s : State} {d : Deadline} (kind : d.kind = .leaseExpiry) (carries : s.Carries d) :
    (s.holding d.record).state = .live := by
  rcases carries with ⟨state, -⟩ | ⟨other, -⟩ | ⟨other, -⟩
  · rw [kind] at state
    cases live : (s.holding d.record).state <;> simp_all [HoldingState.deadlineKind]
  · exact nomatch kind.symm.trans other
  · exact nomatch kind.symm.trans other

theorem handleLeaseExpiry_handled (s : State) {d : Deadline} (kind : d.kind = .leaseExpiry) :
    ∃ u, Handled d s u ∧ Follows u (s.handleLeaseExpiry d.record d.second) := by
  simp only [State.handleLeaseExpiry]
  split
  · rename_i live
    exact ⟨_, .holding (by rw [live, kind]; rfl) (Holding.endsAs_lapsed ..), follows_scan ..⟩
  · rename_i notLive
    exact ⟨s, .nothing (mt (carries_lease kind) notLive), .done s⟩

theorem follows_settleMade (s : State) (waiting : List Deadline) : Follows s (s.settleMade waiting) := by
  have made {s t : State} {d : Deadline} (took : s.takeMade waiting = some (d, t)) :
      d ∈ s.atOnce ∧ d.kind = .leaseExpiry := by
    obtain ⟨listed, tests⟩ := List.mem_filter.mp (takeAmong_some took).1
    exact ⟨mem_of_earliest listed, by simpa using (Bool.and_eq_true_iff.mp tests).1⟩
  exact follows_handleLoop (fun s d t took => ⟨(made took).1, (takeAmong_some took).2⟩)
    (fun s d t took => handleLeaseExpiry_handled t (made took).2) _ s

theorem follows_foldl {α : Type} (act : State → α → State) (acting : ∀ s e, Follows s (act s e)) (l : List α)
    (s : State) : Follows s (l.foldl act s) := by
  induction l generalizing s with
  | nil => exact .done s
  | cons e l ih => exact (acting s e).trans (ih _)

theorem follows_scanAll (s : State) (evt : Nat) : Follows s (s.scanAll evt) :=
  follows_foldl _ (fun acc p => (follows_scan acc p evt).trans (follows_settleMade _ _)) _ s

theorem follows_pass (s : State) (evt : Nat) : Follows s (s.pass evt) := .marks false (follows_scanAll _ evt)

theorem follows_entryFreed (s : State) (asked : Option Nat) (evt : Nat) : Follows s (s.entryFreed asked evt) := by
  unfold State.entryFreed
  split
  · exact follows_pass s evt
  · split
    · exact follows_scan ..
    · exact .done s

theorem handle_handled (s : State) (d : Deadline) : ∃ u, Handled d s u ∧ Follows u (s.handle d) := by
  unfold State.handle
  cases kind : d.kind with
  | leaseExpiry => exact handleLeaseExpiry_handled s kind
  | lingerEnd =>
    simp only [State.handleLingerEnd]
    split
    · rename_i lingers
      rw [endHolding_eq]
      exact ⟨_, .holding (by rw [lingers, kind]; rfl) (Holding.endsAs_free _), follows_entryFreed ..⟩
    · rename_i other
      refine ⟨s, .nothing fun carries => other ?_, .done s⟩
      rcases carries with ⟨state, -⟩ | ⟨odd, -⟩ | ⟨odd, -⟩
      · cases lingers : (s.holding d.record).state <;> simp_all [HoldingState.deadlineKind]
      · exact nomatch kind.symm.trans odd
      · exact nomatch kind.symm.trans odd
  | borrowEnd =>
    simp only [State.handleBorrowEnd]
    split
    · rename_i borrowed
      exact ⟨_, .holding (by rw [borrowed, kind]; rfl) (Holding.endsAs_lapsed ..), follows_scan ..⟩
    · rename_i other
      refine ⟨s, .nothing fun carries => other ?_, .done s⟩
      rcases carries with ⟨state, -⟩ | ⟨odd, -⟩ | ⟨odd, -⟩
      · cases borrowed : (s.holding d.record).state <;> simp_all [HoldingState.deadlineKind]
      · exact nomatch kind.symm.trans odd
      · exact nomatch kind.symm.trans odd
  | waitDeadline =>
    simp only [State.handleWaitDeadline]
    split
    · rename_i waits
      exact ⟨_, .waiter kind waits, .done _⟩
    · rename_i other
      refine ⟨s, .nothing fun carries => other ?_, .done s⟩
      rcases carries with ⟨state, -⟩ | ⟨-, waits, -⟩ | ⟨odd, -⟩
      · cases held : (s.holding d.record).state <;> simp_all [HoldingState.deadlineKind]
      · exact waits
      · exact nomatch kind.symm.trans odd
  | featureEnd =>
    simp only [State.handleFeatureEnd]
    split
    · rename_i f found
      exact ⟨_, .feature kind found, .done _⟩
    · rename_i absent
      refine ⟨s, .nothing fun carries => ?_, .done s⟩
      rcases carries with ⟨state, -⟩ | ⟨odd, -⟩ | ⟨-, f, found, -⟩
      · cases held : (s.holding d.record).state <;> simp_all [HoldingState.deadlineKind]
      · exact nomatch kind.symm.trans odd
      · exact nomatch absent.symm.trans found

theorem takeDue_some {s t : State} {d : Deadline} (took : s.takeDue = some (d, t)) :
    d ∈ s.atOnce ∧ ∃ n, t = { s with atOnce := s.atOnce.erase d, choices := n } :=
  ⟨mem_of_earliest (takeAmong_some took).1, (takeAmong_some took).2⟩

theorem follows_settle (s : State) : Follows s s.settle :=
  follows_handleLoop (fun _ _ _ took => takeDue_some took) (fun _ d t _ => handle_handled t d) _ s

end Sys2Proof.Machine
end

section
/-! SUPPORT. The acts of the commands, and that every command is a chain of them. -/

namespace Sys2Proof.Machine

open Sys2Proof.Claims

/-! ### The acts -/

/-- The part of the state that the invariants of Safety read, beside the frames of the link: all but the link, the
lines, the notice settings, the entry-starved mark and the model's own counters. -/
def State.ledger (s : State) : State :=
  { s with
    resetLow := false
    admen := false
    sdo := []
    sdoBits := []
    fifo := []
    replies := []
    overrun := false
    framing := false
    starved := false
    notices := NoticeSettings.initial
    choices := 0
    pending := [] }

/-- The over state of a pool recomputed, where an edit asks for it. -/
def State.recomputedIf (s : State) (pool : Nat) (recompute : Bool) : State :=
  if recompute then s.recomputeOver pool s.siteTime else s

/-- The deadlines of a feature lowered to the end instant of its new record, where that has one (R17). -/
def State.reclamped (s : State) (code : Nat) (new : Feature) : State :=
  match new.endInstant with
  | some e => s.reclamp code e
  | none => s

/-- What the model has checked before it replaces a feature record (R16, R40). -/
structure Replaces (s : State) (code : Nat) (old new : Feature) : Prop where
  found : s.feature code = some old
  active : old.state = .active
  stays : new.state = .active
  unmoved : (new.pool = old.pool ∧ new.sharing = old.sharing)
    ∨ (s.featureHeld code = false ∧ s.featureWaited code = false)
  formed : s.featureChainFault new = none

/-- An act on what no dealing in holdings, waiters and features touches, with what the model has checked before it. -/
inductive Setting (c : Instr) (s : State) : State → Prop
  | aside {t : State} : t.ledger = s.ledger → Setting c s t
  | resets (low : Bool) : c = .deviceReset ∨ c = .resetRelease → Setting c s { s.toReset with resetLow := low }
  | divides {n : Nat} : s.timeState = .set → n ≤ 32767 → Setting c s { s with divider := n }
  | turns : s.timeState = .set → s.siteTime < 4294967295 → s.reached = [] →
      Setting c s
        { s with
          siteTime := s.siteTime + 1
          reached := s.deadlines.filter (fun d => d.second == s.siteTime + 1) }
  | stepsTo {v : Nat} : s.timeState = .unset ∨ s.siteTime < v → v ≤ 4294967295 →
      Setting c s
        { s with
          siteTime := v
          timeState := .set
          divider := 0
          atOnce := s.deadlines.filter (fun d => d.second ≤ v) }
  | stepsBack {v : Nat} : c = .setTime → s.timeState = .set → v < s.siteTime → s.holdingsFree = true → s.waitersFree = true →
      Setting c s (s.stepBack v)
  | opens : c = .openService → Setting c s { s with service := .opened }
  | closes : Setting c s { s with service := .closed }
  | listsProject {code : Nat} : code ∉ s.projects → s.projects.length < 128 →
      Setting c s { s with projects := s.projects ++ [code] }
  | unlistsProject (code : Nat) : Setting c s { s with projects := s.projects.erase code }
  | removesUser (code : Nat) : Setting c s { s with users := tableErase s.users code }
  | definesUser {code : Nat} (u : User) : (s.user code).isSome = true ∨ s.users.length < 4096 →
      Setting c s { s with users := tableInsert s.users code u }
  | removesHost (code : Nat) : Setting c s { s with hosts := tableErase s.hosts code }
  | definesHost {code : Nat} (cls : Nat) : (tableFind s.hosts code).isSome = true ∨ s.hosts.length < 1024 →
      Setting c s { s with hosts := tableInsert s.hosts code cls }
  | writes {f : Frame} {first : Nat} : (∀ i, i < slotCount f → s.slotInUse (first + i) = false) →
      Setting c s (s.writeSlots f first)

/-- An act on the holdings, the waiters, the features and the accounts, with what the model has checked before it. -/
inductive Dealing (s : State) : State → Prop
  | shuts : Dealing s { s with reached := [], atOnce := s.atOnce ++ s.reached }
  | takes {d : Deadline} {t : State} : d ∈ s.reached → Handled d (s.taken d) t → Dealing s t
  | unlists (d : Drained) : Dealing s { s with drained := s.drained.erase d }
  | unmarks (p : Nat) : Dealing s (s.setPool p { s.pool p with overMark := none })
  | renews {i : Nat} : (s.holding i).state = .live →
      Dealing s (s.placeHolding i
        { s.holding i with deadline := s.leaseEnd (s.featureOf (s.holding i).feature) })
  | drops {i : Nat} : (s.holding i).state = .live → 1 < (s.holding i).refs →
      Dealing s (s.setHolding i { s.holding i with refs := (s.holding i).refs - 1 })
  | lingers {i : Nat} (n : Nat) : (s.holding i).state = .live →
      Dealing s ((s.placeHolding i
        { s.holding i with
          state := .lingering
          refs := 0
          deadline := (s.featureOf (s.holding i).feature).clamp n }).setPool (s.holding i).pool
        { s.pool (s.holding i).pool with
          lingering := (s.pool (s.holding i).pool).lingering + (s.holding i).tokens })
  | converts {i : Nat} (n : Nat) : (s.holding i).state = .live →
      Dealing s ((s.placeHolding i
        { s.holding i with
          state := .borrowed
          refs := 1
          deadline := (s.featureOf (s.holding i).feature).clamp n }).setPool (s.holding i).pool
        { s.pool (s.holding i).pool with
          borrowed := (s.pool (s.holding i).pool).borrowed + (s.holding i).tokens })
  | ends {i : Nat} {x : Holding} (evt : Nat) : (s.holding i).state.counted = true → (s.holding i).EndsAs x →
      Dealing s (s.uncount i x evt)
  | clears {i : Nat} : (TableRising s.holdings → (s.holding i).state = .lapsed) → Dealing s (s.clearEntry i)
  | cancels {j : Nat} : (s.waiter j).state = .waiting →
      Dealing s (s.dequeue (s.featureOf (s.waiter j).feature).pool j (Waiter.freeEntry (nextGen (s.waiter j).gen)))
  | frees {j : Nat} : (TableRising s.waiters → (s.waiter j).state = .granted ∨ (s.waiter j).state = .ended) →
      Dealing s (s.freeWaiterEntry j)
  | joins {f : Feature} {a : Asking} {path : Path} {cost i : Nat} : Chosen s f a path cost i → f.state = .active →
      s.service = .opened → Dealing s (s.grantPath f a path cost i s.siteTime)
  | queues {f : Feature} {a : Asking} {j : Nat} (wait : Nat) : s.feature a.feature = some f → f.state = .active →
      s.freeWaiter = some j → Dealing s (s.queueCheckout f a wait j)
  | resizes (p capacity borrowCap : Nat) :
      Dealing s
        ((s.setPool p { s.pool p with capacity := capacity, borrowCap := borrowCap }).recomputedIf p
          (capacity != (s.pool p).capacity))
  | reallots {a : Allotment} (reserve : Nat) (cap : Option Nat) : s.allotment a.project a.pool = some a →
      Dealing s
        ((s.changeAllotment a.project a.pool (fun x => { x with reserve := reserve, cap := cap })).recomputedIf a.pool
          (reserve != a.reserve))
  | allots {a : Allotment} : s.allotment a.project a.pool = none → s.allotments.length < 256 →
      a.used = s.projectTokens a.project a.pool →
      Dealing s (({ s with allotments := s.allotments ++ [a] } : State).recomputeOver a.pool s.siteTime)
  | unallots (project pool : Nat) :
      Dealing s
        (({ s with allotments := s.allotments.filter (fun x => !x.keyed project pool) } : State).recomputedIf pool true)
  | creates {code : Nat} {f : Feature} : s.feature code = none → s.features.length < 512 → f.state = .active →
      s.featureChainFault f = none → Dealing s (s.placeFeature code f)
  | updates {code : Nat} {old new : Feature} : Replaces s code old new → new.endDay = old.endDay →
      Dealing s (s.setFeature code { new with endLodged := old.endLodged })
  | reclamps {code : Nat} {old new : Feature} : Replaces s code old new → new.endDay ≠ old.endDay →
      Dealing s ((s.reclamped code new).placeFeature code new)
  | retires {code : Nat} {f : Feature} : s.feature code = some f → f.state = .active → Dealing s (s.retire code f)
  | empties : s.service = .closed → Dealing s s.clearedOut

/-- One act of a command. -/
inductive Deed (c : Instr) (s t : State) : Prop
  | sets : Setting c s t → Deed c s t
  | deals : Dealing s t → Deed c s t

/-- A stretch of a command: an act that leaves nothing to handle at once, or an act, what follows it, and the handling
of every deadline reached. -/
inductive Link (c : Instr) (s : State) : State → Prop
  | quiet {t : State} : Deed c s t → (s.atOnce = [] → t.atOnce = []) → Link c s t
  | settled {u v : State} : Deed c s u → Follows u v → Link c s v.settle

/-- A chain of stretches. -/
abbrev Links (c : Instr) : State → State → Prop := Relation.ReflTransGen (Link c)

variable {c : Instr} {s : State}

theorem Links.quiet {t : State} (deed : Deed c s t) (calm : s.atOnce = [] → t.atOnce = []) : Links c s t :=
  .single (.quiet deed calm)

theorem Links.settled {t : State} (deed : Deed c s t) : Links c s t.settle := .single (.settled deed (.done t))

theorem Links.aside {t : State} (same : t.ledger = s.ledger) : Links c s t :=
  .quiet (.sets <| .aside same) fun calm => (congrArg State.atOnce same :).trans calm

theorem Links.refused (a : Answer) : Links c s (s, a).1 := .refl

/-- What holds before a command and is kept by every act and by what follows it holds after the command. -/
theorem Links.keeps {P : State → Prop} (acts : ∀ s t, Deed c s t → P s → P t) (follows : ∀ s t, Follows s t → P s → P t)
    {s t : State} (links : Links c s t) (holds : P s) : P t := by
  induction links with
  | refl => exact holds
  | tail _ link ih =>
    cases link with
    | quiet deed _ => exact acts _ _ deed ih
    | settled deed follow => exact follows _ _ (follows_settle _) (follows _ _ follow (acts _ _ deed ih))

/-! ### The decoder -/

theorem takeFrame_fields {s t : State} {f : Frame} (took : s.takeFrame = some (f, t)) :
    s.resetLow = false ∧ s.replies.length < 16 ∧ ∃ rest, s.fifo = f :: rest ∧ t = s.leaving rest := by
  unfold State.takeFrame at took
  split at took
  · cases took
  rename_i free
  obtain ⟨released, room⟩ := not_or.mp free
  split at took
  · cases took
  · cases took
    exact ⟨by simpa using released, Nat.lt_of_not_le room, _, by assumption, rfl⟩

theorem answerFrame_links {owner : Frame → State → State × Answer} (serves : ∀ f s, Links c s (owner f s).1) (f : Frame)
    (s : State) : Links c s (answerFrame owner f s) := by
  have judged : Links c s (judge owner f s).1 := by
    unfold judge
    split_ifs
    · exact .refl
    · exact .refl
    · exact .refl
    · exact serves f s
  exact judged.trans (Links.aside rfl)

/-- A command that takes a frame: the frame leaves the FIFO, its owner serves it, and the reply is placed. -/
theorem serveKind_links {kind : Nat} {owner : Frame → State → State × Answer}
    (serves : ∀ f s, Links c s (owner f s).1) {s t : State} (served : serveKind kind owner s = .next t) :
    Links c s t := by
  unfold serveKind at served
  split at served
  · rename_i f taken took
    obtain ⟨-, -, rest, -, rfl⟩ := takeFrame_fields took
    split at served
    · cases served
      have left : Links c s (s.leaving rest) := .aside rfl
      exact left.trans (answerFrame_links serves f _)
    · cases served
      exact .refl
  · cases served
    exact .refl

/-! ### Client requests -/

theorem handleNames_some {index gen : Nat} {h : Holding} (named : s.handleNames index gen = some h) :
    h = s.holding index ∧ h.gen = gen ∧ h.state ≠ .free := by
  simp only [State.handleNames] at named
  split at named
  · cases named
    exact ⟨rfl, by assumption⟩
  · cases named

theorem ticketNames_some {index gen : Nat} {w : Waiter} (named : s.ticketNames index gen = some w) :
    w = s.waiter index ∧ w.gen = gen ∧ w.state ≠ .free := by
  simp only [State.ticketNames] at named
  split at named
  · cases named
    exact ⟨rfl, by assumption⟩
  · cases named

theorem decideCheckout_links {f : Feature} {a : Asking} (known : s.feature a.feature = some f)
    (active : f.state = .active) (opened : s.service = .opened) (wait : Nat) :
    Links c s (s.decideCheckout f a wait).1 := by
  simp only [State.decideCheckout]
  split
  · exact .refl
  split
  · simp only [State.holdBack]
    split
    · exact .refl
    split
    · exact .refl
    · rename_i j free
      exact .settled (.deals <| .queues wait known active free)
  · split
    · exact .refl
    · rename_i i entry
      exact .settled (.deals <| .joins ⟨known, rfl, rfl, entry⟩ active opened)

/-- A Checkout that no check before the choice of its path refuses is one of an ACTIVE feature (R75). -/
theorem checkoutRefusal_none {a : Asking} (passes : s.checkoutRefusal a = none) :
    ∃ f, s.feature a.feature = some f ∧ f.state = .active := by
  unfold State.checkoutRefusal at passes
  split at passes
  · cases passes
  · rename_i f known
    refine ⟨f, known, ?_⟩
    simp only at passes
    split_ifs at passes with retiring
    cases state : f.state with
    | active => rfl
    | retiring => exact absurd state retiring

theorem checkout_links (f : Frame) (s : State) : Links c s (serveCheckout f s).1 := by
  simp only [serveCheckout]
  split
  · exact .refl
  rename_i opened
  split
  · exact .refl
  split
  · exact .refl
  rename_i passes
  obtain ⟨g, known, active⟩ := checkoutRefusal_none passes
  have record : s.featureOf (checkoutAsking f s).feature = g := by rw [State.featureOf, known]; rfl
  rw [record]
  refine decideCheckout_links known active ?_ _
  cases service : s.service with
  | closed => exact absurd service opened
  | opened => rfl

theorem renew_links (f : Frame) (s : State) : Links c s (serveRenew f s).1 := by
  simp only [serveRenew]
  split
  · exact .refl
  split
  · exact .refl
  rename_i h named
  obtain ⟨rfl, -, -⟩ := handleNames_some named
  unfold State.renewHolding
  split
  · exact .refl
  · exact .refl
  · exact .refl
  · exact .refl
  · rename_i live
    split
    · exact .refl
    · exact .settled (.deals <| .renews live)

theorem releaseLast_links {i : Nat} (live : (s.holding i).state = .live) (now : Bool) :
    Links c s (s.releaseLast i (s.holding i) now).1 := by
  simp only [State.releaseLast]
  split
  · exact .settled (.deals <| .lingers _ live)
  · rw [endHolding_eq]
    exact .single (.settled (.deals <| .ends s.siteTime (by rw [live]; rfl) (Holding.endsAs_free _)) (follows_entryFreed ..))

theorem release_links (f : Frame) (s : State) : Links c s (serveRelease f s).1 := by
  simp only [serveRelease]
  split
  · exact .refl
  split
  · exact .refl
  rename_i h named
  obtain ⟨rfl, -, -⟩ := handleNames_some named
  unfold State.releaseHolding
  split
  · exact .refl
  · exact .refl
  · exact .refl
  · exact .refl
  · rename_i live
    split
    · rename_i more
      exact .quiet (.deals <| .drops live more) id
    · exact releaseLast_links live _

theorem borrow_links (f : Frame) (s : State) : Links c s (serveBorrow f s).1 := by
  simp only [serveBorrow]
  split
  · exact .refl
  split
  · exact .refl
  split
  · exact .refl
  rename_i h named
  obtain ⟨rfl, -, -⟩ := handleNames_some named
  unfold State.borrowHolding
  split
  · exact .refl
  · exact .refl
  · exact .refl
  · exact .refl
  · rename_i live
    simp only
    split_ifs
    · exact .refl
    · exact .refl
    · exact .refl
    · exact .refl
    · exact .settled (.deals <| .converts _ live)

theorem return_links (f : Frame) (s : State) : Links c s (serveReturn f s).1 := by
  simp only [serveReturn]
  split
  · exact .refl
  split
  · exact .refl
  rename_i h named
  obtain ⟨rfl, -, -⟩ := handleNames_some named
  unfold State.returnHolding
  split
  · exact .refl
  · exact .refl
  · exact .refl
  · exact .refl
  · rename_i borrowed
    rw [endHolding_eq]
    exact .single
      (.settled (.deals <| .ends s.siteTime (by rw [borrowed]; rfl) (Holding.endsAs_free _)) (follows_entryFreed ..))

theorem calm_placeWaiter (j : Nat) {w : Waiter} (unlodged : w.state ≠ .waiting) (calm : s.atOnce = []) :
    (s.placeWaiter j w).atOnce = [] := by
  simp [placeWaiter_eq, calm, waiterDeadline, unlodged, dueNow_none]

theorem frees_links {j : Nat}
    (reported : TableRising s.waiters → (s.waiter j).state = .granted ∨ (s.waiter j).state = .ended) :
    Links c s (s.freeWaiterEntry j) :=
  .quiet (.deals <| .frees reported) (calm_placeWaiter j nofun)

theorem cancelWait_links (f : Frame) (s : State) : Links c s (serveCancelWait f s).1 := by
  simp only [serveCancelWait]
  split
  · exact .refl
  split
  · exact .refl
  rename_i w named
  obtain ⟨rfl, -, -⟩ := ticketNames_some named
  unfold State.cancelWaiter
  split
  · exact .refl
  · rename_i waits
    exact .quiet (.deals <| .cancels waits) (calm_placeWaiter (s := s.leaveQueue _ _) _ nofun)
  · rename_i granted
    exact frees_links fun _ => .inl granted
  · rename_i ended
    exact frees_links fun _ => .inr ended

theorem queryHolding_links (f : Frame) (s : State) : Links c s (serveQueryHolding f s).1 := by
  simp only [serveQueryHolding]
  split
  · exact .refl
  split <;> exact .refl

theorem queryPool_links (f : Frame) (s : State) : Links c s (serveQueryPool f s).1 := by
  simp only [serveQueryPool]
  split_ifs <;> exact .refl

/-! ### Notices -/

theorem mem_waiterRecords {st : WaiterState} {time index : Nat} (rising : TableRising s.waiters) :
    (time, index) ∈ s.waiters.filterMap (waiterRecord st) ↔
      ∃ w, tableFind s.waiters index = some w ∧ w.state = st ∧ w.eventTime = time := by
  simp only [List.mem_filterMap, waiterRecord]
  constructor
  · rintro ⟨⟨i, w⟩, listed, record⟩
    split at record
    · cases record
      exact ⟨w, tableFind_of_mem rising listed, by assumption, rfl⟩
    · cases record
  · rintro ⟨w, found, state, rfl⟩
    exact ⟨(index, w), mem_of_tableFind found, by simp [state]⟩

theorem mem_lapseRecords {time index : Nat} (rising : TableRising s.holdings) :
    (time, index) ∈ s.holdings.filterMap lapseRecord ↔
      ∃ h, tableFind s.holdings index = some h ∧ h.state = .lapsed ∧ h.eventTime = time := by
  simp only [List.mem_filterMap, lapseRecord]
  constructor
  · rintro ⟨⟨i, h⟩, listed, record⟩
    split at record
    · cases record
      exact ⟨h, tableFind_of_mem rising listed, by assumption, rfl⟩
    · cases record
  · rintro ⟨h, found, state, rfl⟩
    exact ⟨(index, h), mem_of_tableFind found, by simp [state]⟩

theorem report_links (s : State) (k : NoticeKind) : Links c s (s.report k).1 := by
  unfold State.report
  split
  · exact .refl
  rename_i time index oldest
  have listed : (time, index) ∈ s.records k := firstBy_mem oldest
  cases k with
  | grant =>
    refine frees_links fun rising => .inl ?_
    obtain ⟨w, found, granted, -⟩ := (mem_waiterRecords rising).mp listed
    simp [State.waiter, tableGet, found, granted]
  | waitEnd =>
    refine frees_links fun rising => .inr ?_
    obtain ⟨w, found, ended, -⟩ := (mem_waiterRecords rising).mp listed
    simp [State.waiter, tableGet, found, ended]
  | lapse =>
    refine .single (.settled (.deals <| .clears fun rising => ?_) (follows_entryFreed ..))
    obtain ⟨h, found, lapsed, -⟩ := (mem_lapseRecords rising).mp listed
    simp [State.holding, tableGet, found, lapsed]
  | poolOver => exact .quiet (.deals <| .unmarks index) id
  | drained => exact .quiet (.deals <| .unlists _) id

theorem nextNotice_links (f : Frame) (s : State) : Links c s (serveNextNotice f s).1 := by
  simp only [serveNextNotice]
  split
  · split
    · exact report_links s _
    · exact .refl
  · split
    · exact report_links s _
    · exact .refl

theorem setNoticeLevels_links (f : Frame) (s : State) : Links c s (serveSetNoticeLevels f s).1 := by
  simp only [serveSetNoticeLevels]
  split
  · exact .refl
  · exact .aside rfl

/-! ### Time -/

theorem placeHolding_reached (s : State) (i : Nat) (h : Holding) : (s.placeHolding i h).reached ⊆ s.reached := by
  rw [placeHolding_eq]
  exact List.filter_subset_self _

theorem placeWaiter_reached (s : State) (j : Nat) (w : Waiter) : (s.placeWaiter j w).reached ⊆ s.reached := by
  rw [placeWaiter_eq]
  exact List.filter_subset_self _

theorem chargeJoin_reached (s : State) (h : Holding) (cost evt : Nat) :
    (s.chargeJoin h cost evt).reached = s.reached := by
  rw [State.chargeJoin]
  split <;> rfl

theorem grantPath_reached (s : State) (f : Feature) (a : Asking) (path : Path) (cost i evt : Nat) :
    (s.grantPath f a path cost i evt).reached ⊆ s.reached := by
  cases path with
  | fresh => exact placeHolding_reached ..
  | merge k =>
    rw [State.grantPath, State.mergeHolding, chargeJoin_reached]
    exact placeHolding_reached ..
  | reattach k =>
    rw [State.grantPath, State.reattachHolding, chargeJoin_reached]
    exact placeHolding_reached ..

theorem grantWaiter_reached (s : State) (j : Nat) (f : Feature) (path : Path) (cost i evt : Nat) :
    (s.grantWaiter j f path cost i evt).reached ⊆ s.reached :=
  List.Subset.trans (placeWaiter_reached ..) (grantPath_reached ..)

theorem drainReport_reached (s : State) (code evt : Nat) : (s.drainReport code evt).reached ⊆ s.reached := by
  rcases drainReport_cases s code evt with same | ⟨-, -, drained⟩
  · rw [same]
    exact List.Subset.refl _
  · rw [drained]
    exact List.filter_subset_self _

theorem drainReport_atOnce (s : State) (code evt : Nat) : (s.drainReport code evt).atOnce ⊆ s.atOnce := by
  rcases drainReport_cases s code evt with same | ⟨-, -, drained⟩
  · rw [same]
    exact List.Subset.refl _
  · rw [drained]
    exact List.filter_subset_self _

theorem endFeatureWaiters_reached (s : State) (code : Nat) (reason : WaiterEnd) (evt : Nat) :
    (s.endFeatureWaiters code reason evt).reached ⊆ s.reached := by
  unfold State.endFeatureWaiters
  suffices fold : ∀ (l : Table Waiter) (u : State), (l.foldl
      (fun acc e => if e.2.state = .waiting ∧ e.2.feature = code then acc.endWaiter e.1 reason evt else acc)
      u).reached ⊆ u.reached from fold _ _
  intro l
  induction l with
  | nil => exact fun u => List.Subset.refl _
  | cons e l ih =>
    intro u
    rw [List.foldl_cons]
    refine List.Subset.trans (ih _) ?_
    split
    · exact placeWaiter_reached ..
    · exact List.Subset.refl _

theorem endFeatureWaiters_atOnce (s : State) (code : Nat) (reason : WaiterEnd) (evt : Nat) :
    (s.endFeatureWaiters code reason evt).atOnce ⊆ s.atOnce := by
  unfold State.endFeatureWaiters
  suffices fold : ∀ (l : Table Waiter) (u : State), (l.foldl
      (fun acc e => if e.2.state = .waiting ∧ e.2.feature = code then acc.endWaiter e.1 reason evt else acc)
      u).atOnce ⊆ u.atOnce from fold _ _
  intro l
  induction l with
  | nil => exact fun u => List.Subset.refl _
  | cons e l ih =>
    intro u
    rw [List.foldl_cons]
    refine List.Subset.trans (ih _) ?_
    split
    · simp [endWaiter_eq, State.dequeue, placeWaiter_eq, waiterDeadline, Waiter.endedAs, dueNow_none,
        List.filter_subset_self]
    · exact List.Subset.refl _

theorem retire_atOnce (s : State) (code : Nat) (f : Feature) : (s.retire code f).atOnce ⊆ s.atOnce :=
  List.Subset.trans (drainReport_atOnce ..) (endFeatureWaiters_atOnce ..)

theorem Handled.reached_subset {d : Deadline} {s t : State} (handled : Handled d s t) : t.reached ⊆ s.reached := by
  cases handled with
  | nothing _ => exact List.Subset.refl _
  | holding _ _ => exact List.Subset.trans (drainReport_reached ..) (placeHolding_reached ..)
  | waiter _ _ => exact placeWaiter_reached ..
  | feature _ _ => exact endFeatureWaiters_reached ..

/-- A follow-up takes deadlines out of those that an advance reached, and adds none. -/
theorem Follows.reached_subset {s t : State} (follows : Follows s t) : t.reached ⊆ s.reached := by
  induction follows with
  | done s => exact List.Subset.refl _
  | marks mark _ ih => exact ih
  | grants evt grants _ ih => exact List.Subset.trans ih (grantWaiter_reached ..)
  | handles n _ handled _ ih => exact List.Subset.trans ih handled.reached_subset

theorem closeSecond_links (s : State) : Links c s s.closeSecond := .settled (.deals .shuts)

theorem closeSecond_reached (s : State) : s.closeSecond.reached = [] :=
  List.subset_nil.mp (follows_settle _).reached_subset

theorem closeSecond_still (s : State) : s.closeSecond.still = s.still := still_settle _

theorem closeSecond_clock (s : State) :
    s.closeSecond.siteTime = s.siteTime ∧ s.closeSecond.timeState = s.timeState := by
  obtain ⟨-, -, -, -, -, -, -, -, -, -, -, -, -, siteTime, timeState, -⟩ := still_fields (closeSecond_still s)
  exact ⟨siteTime, timeState⟩

theorem advance_links (counts : s.timeState = .set) : Links c s s.advance := by
  unfold State.advance
  split
  · exact .quiet (.sets <| .divides counts (by omega)) id
  rename_i room
  let restarted : State := { s with divider := 0 }
  obtain ⟨siteTime, timeState⟩ := closeSecond_clock restarted
  have divided : Links c s restarted := .quiet (.sets <| .divides counts (by omega)) id
  refine (divided.trans (closeSecond_links restarted)).trans (Links.quiet (.sets <| .turns ?_ ?_ (closeSecond_reached _)) id)
  · exact timeState.trans counts
  · rw [siteTime]
    exact Nat.lt_of_not_le room

theorem stepTo_links {v : Nat} (ahead : s.timeState = .unset ∨ s.siteTime < v) (bound : v ≤ 4294967295) :
    Links c s (s.stepTo v) := by
  obtain ⟨siteTime, timeState⟩ := closeSecond_clock s
  refine (closeSecond_links s).trans (Links.settled (.sets <| .stepsTo ?_ bound))
  rwa [timeState, siteTime]

theorem field32_le (f : Frame) (n : Nat) : field32 f n ≤ 4294967295 := by
  have high := (f.getD n 0#16).isLt
  have low := (f.getD (n + 1) 0#16).isLt
  simp only [field32, field]
  omega

theorem setTime_links (f : Frame) (s : State) : Links .setTime s (serveSetTime f s).1 := by
  simp only [serveSetTime]
  split
  · rename_i unset
    exact stepTo_links (.inl unset) (field32_le ..)
  rename_i counts
  have counts : s.timeState = .set := by
    cases state : s.timeState with
    | unset => exact absurd state counts
    | set => rfl
  split
  · rename_i ahead
    exact stepTo_links (.inr ahead) (field32_le ..)
  split
  · exact .quiet (.sets <| .divides counts (by omega)) id
  split
  · exact .refl
  split
  · exact .refl
  · rename_i ahead other holdings waiters
    refine .quiet (.sets <| .stepsBack rfl counts (by omega) (by simpa using holdings) (by simpa using waiters)) id

theorem takeReached_links (s : State) (kind : DeadlineKind) (record : Nat) :
    Links c s (s.takeReached kind record) := by
  unfold State.takeReached
  split
  · rename_i d reached
    unfold State.reachedOf at reached
    split at reached
    · cases reached
    obtain ⟨u, handled, follows⟩ := handle_handled (s.taken d) d
    exact .single (.settled (.deals <| .takes (List.mem_of_find?_eq_some reached) handled) follows)
  · exact .refl

/-! ### Admin requests -/

theorem passes_links {u : State} (deed : Deed c s u) (evt : Nat) : Links c s (u.pass evt).settle :=
  .single (.settled deed (follows_pass u evt))

theorem openService_links (f : Frame) (s : State) : Links .openService s (serveOpenService f s).1 := by
  unfold serveOpenService
  by_cases unset : s.timeState = .unset
  · rw [if_pos unset]
  by_cases opened : s.service = .opened
  · rw [if_neg unset, if_pos opened]
  · rw [if_neg unset, if_neg opened]
    have opens : Deed .openService s { s with service := .opened } := .sets (.opens rfl)
    have links := passes_links opens s.siteTime
    generalize (State.pass _ _).settle = t at links ⊢
    exact links

theorem closeService_links (f : Frame) (s : State) : Links c s (serveCloseService f s).1 := by
  simp only [serveCloseService]
  split
  · exact .refl
  · exact .quiet (.sets .closes) id

theorem afterEdit_eq (s : State) (pool : Nat) (recompute asked : Bool) :
    s.afterEdit pool recompute asked =
      if asked || ((s.pool pool).isOver && !((s.recomputedIf pool recompute).pool pool).isOver) then
        ((s.recomputedIf pool recompute).scan pool (s.recomputedIf pool recompute).siteTime).settle
      else s.recomputedIf pool recompute := rfl

/-- An edit recomputes the over state where it is to, and then asks for a scan or does not. -/
theorem afterEdit_cases (s : State) (pool : Nat) (recompute asked : Bool) :
    s.afterEdit pool recompute asked = s.recomputedIf pool recompute
      ∨ s.afterEdit pool recompute asked = ((s.recomputedIf pool recompute).scan pool s.siteTime).settle := by
  have time : (s.recomputedIf pool recompute).siteTime = s.siteTime := by
    unfold State.recomputedIf
    split <;> rfl
  rw [afterEdit_eq]
  split
  · exact .inr (by rw [time])
  · exact .inl rfl

theorem recomputedIf_atOnce (s : State) (pool : Nat) (recompute : Bool) :
    (s.recomputedIf pool recompute).atOnce = s.atOnce := by
  unfold State.recomputedIf
  split <;> rfl

theorem afterEdit_links {u : State} {pool : Nat} {recompute : Bool} (deed : Deed c s (u.recomputedIf pool recompute))
    (calm : s.atOnce = [] → u.atOnce = []) (asked : Bool) : Links c s (u.afterEdit pool recompute asked) := by
  rcases afterEdit_cases u pool recompute asked with edited | edited
  · rw [edited]
    exact .quiet deed fun none => (recomputedIf_atOnce ..).trans (calm none)
  · rw [edited]
    exact .single (.settled deed (follows_scan ..))

theorem definePool_links (f : Frame) (s : State) : Links c s (serveDefinePool f s).1 := by
  simp only [serveDefinePool]
  split
  · exact .refl
  · exact afterEdit_links (.deals <| .resizes ..) id _

theorem defineProject_links (f : Frame) (s : State) : Links c s (serveDefineProject f s).1 := by
  simp only [serveDefineProject]
  split
  · exact .refl
  split
  · exact .refl
  split
  · exact .refl
  · rename_i fresh room
    exact .quiet (.sets <| .listsProject fresh (Nat.lt_of_not_le room)) id

theorem removeProject_links (f : Frame) (s : State) : Links c s (serveRemoveProject f s).1 := by
  simp only [serveRemoveProject]
  split
  · exact .refl
  split
  · exact .refl
  split
  · exact .refl
  · exact .quiet (.sets <| .unlistsProject _) id

theorem allotment_some {s : State} {project pool : Nat} {a : Allotment} (found : s.allotment project pool = some a) :
    a ∈ s.allotments ∧ a.project = project ∧ a.pool = pool := by
  have keyed := List.find?_some found
  simp only [Allotment.keyed, Bool.and_eq_true, beq_iff_eq] at keyed
  exact ⟨List.mem_of_find?_eq_some found, keyed⟩

theorem defineAllotment_links (f : Frame) (s : State) : Links c s (serveDefineAllotment f s).1 := by
  simp only [serveDefineAllotment]
  split
  · exact .refl
  split
  · rename_i a found
    obtain ⟨-, project, pool⟩ := allotment_some found
    exact afterEdit_links (.deals <| .reallots _ _ (by rw [project, pool, found])) id _
  · rename_i absent
    split
    · exact .refl
    split
    · exact .refl
    · rename_i room
      exact .quiet (.deals <| .allots absent (Nat.lt_of_not_le room) rfl) id

theorem removeAllotment_links (f : Frame) (s : State) : Links c s (serveRemoveAllotment f s).1 := by
  simp only [serveRemoveAllotment]
  split
  · exact .refl
  split
  · exact .refl
  split
  · exact .refl
  · exact afterEdit_links (.deals <| .unallots (field f 2) (field f 3)) id true

/-- What Define Feature has checked before it replaces a record (R16, R40). -/
theorem replaces_of_checks {code : Nat} {old new : Feature} (found : s.feature code = some old)
    (active : old.state ≠ .retiring) (stays : new.state = .active) (free : s.featureUse code old new = none)
    (formed : s.featureChainFault new = none) : Replaces s code old new := by
  refine ⟨found, ?_, stays, ?_, formed⟩
  · cases state : old.state with
    | active => rfl
    | retiring => exact absurd state active
  · unfold State.featureUse at free
    split_ifs at free with unmoved held waited
    · exact .inl unmoved
    · exact .inr ⟨by simpa using held, by simpa using waited⟩

theorem replaceFeature_links {code : Nat} {old new : Feature} (replaces : Replaces s code old new) :
    Links c s (s.replaceFeature code old new) := by
  simp only [State.replaceFeature]
  split
  · rename_i same
    exact .quiet (.deals <| .updates replaces same) id
  · rename_i other
    exact .settled (.deals <| .reclamps replaces other)

theorem defineFeature_links (f : Frame) (s : State) : Links c s (serveDefineFeature f s).1 := by
  simp only [serveDefineFeature]
  split
  · exact .refl
  split
  · rename_i absent
    split
    · exact .refl
    rename_i room
    split
    · exact .refl
    · rename_i formed
      exact .settled (.deals <| .creates absent (Nat.lt_of_not_le room) rfl formed)
  · rename_i old found
    split
    · exact .refl
    rename_i active
    split
    · exact .refl
    rename_i free
    split
    · exact .refl
    · rename_i formed
      exact replaceFeature_links (replaces_of_checks found active rfl free formed)

theorem retireFeature_links (f : Frame) (s : State) : Links c s (serveRetireFeature f s).1 := by
  simp only [serveRetireFeature]
  split
  · exact .refl
  split
  · exact .refl
  rename_i r found
  split
  · exact .refl
  · rename_i active
    refine .quiet (.deals <| .retires found ?_) ?_
    · cases state : r.state with
      | active => rfl
      | retiring => exact absurd state active
    · exact fun calm => List.subset_nil.mp (calm ▸ retire_atOnce s (field f 2) r)

theorem queryFeature_links (f : Frame) (s : State) : Links c s (serveQueryFeature f s).1 := by
  simp only [serveQueryFeature]
  split
  · exact .refl
  · split <;> exact .refl

theorem writeTerms_links (f : Frame) (s : State) : Links c s (serveWriteTerms f s).1 := by
  simp only [serveWriteTerms]
  split
  · exact .refl
  split
  · exact .refl
  split
  · exact .refl
  · rename_i unused
    refine .quiet (.sets <| .writes fun i inside => ?_) id
    simp only [List.any_eq_true, List.mem_range, not_exists, not_and] at unused
    simpa using unused i inside

theorem defineUser_links (f : Frame) (s : State) : Links c s (serveDefineUser f s).1 := by
  simp only [serveDefineUser]
  split
  · exact .refl
  split
  · exact .quiet (.sets <| .removesUser _) id
  split
  · exact .refl
  · rename_i room
    refine .quiet (.sets <| .definesUser _ ?_) id
    by_cases known : (s.user (field f 2)).isSome = true
    · exact .inl known
    · simp only [known, Bool.not_false, Bool.true_and, decide_eq_true_eq] at room
      exact .inr (Nat.lt_of_not_le room)

theorem defineHost_links (f : Frame) (s : State) : Links c s (serveDefineHost f s).1 := by
  simp only [serveDefineHost]
  split
  · exact .refl
  split
  · exact .quiet (.sets <| .removesHost _) id
  split
  · exact .refl
  · rename_i room
    refine .quiet (.sets <| .definesHost _ ?_) id
    by_cases known : (tableFind s.hosts (field f 2)).isSome = true
    · exact .inl known
    · simp only [known, Bool.not_false, Bool.true_and, decide_eq_true_eq] at room
      exact .inr (Nat.lt_of_not_le room)

theorem clearHoldings_links (f : Frame) (s : State) : Links c s (serveClearHoldings f s).1 := by
  cases service : s.service with
  | opened =>
    rw [serveClearHoldings_opened service]
  | closed =>
    rw [serveClearHoldings_closed service]
    exact .quiet (.deals <| .empties service) (clearedOut_atOnce s)

/-! ### The link, the lines and the clock -/

theorem receiveFrame_ledger (s : State) (bytes : List Byte) : (s.receiveFrame bytes).ledger = s.ledger := by
  unfold State.receiveFrame
  split
  · rfl
  split
  · rfl
  split_ifs <;> rfl

theorem transaction_ledger (s : State) (command : Option Byte) (sdi : Sent) :
    (s.transaction command sdi).ledger = s.ledger := by
  unfold State.transaction
  split
  · rfl
  split_ifs
  · exact receiveFrame_ledger _ _
  · rfl
  · rfl
  · rfl

/-- While RESETn is asserted a transaction changes nothing, and otherwise the link alone. -/
theorem unlessLow_links {t : State} (same : t.ledger = s.ledger) : Links c s (if s.resetLow then s else t) := by
  split
  · exact .refl
  · exact .aside same

theorem deviceReset_links : Links .deviceReset s { s.toReset with resetLow := true } :=
  .quiet (.sets <| .resets true (.inl rfl)) fun _ => rfl

theorem resetRelease_links : Links .resetRelease s (if s.resetLow then s.toReset else s) := by
  split
  · exact .quiet (.sets <| .resets false (.inr rfl)) fun _ => rfl
  · exact .refl

theorem counting_set (counts : ¬s.counting = false) : s.timeState = .set := by
  simp only [State.counting, Bool.not_eq_false, Bool.and_eq_true, beq_iff_eq] at counts
  exact counts.2

theorem siteTimeAdvance_links {t : State} (done : execSiteTimeAdvance s = .next t) : Links c s t := by
  unfold execSiteTimeAdvance at done
  split at done
  · cases done
    exact .refl
  · rename_i counts
    cases done
    exact advance_links (counting_set counts)

theorem refclkPeriod_links {t : State} (done : execRefclkPeriod s = .next t) : Links c s t := by
  unfold execRefclkPeriod at done
  split at done
  · cases done
    exact .refl
  rename_i counts
  split at done
  · rename_i below
    cases done
    exact .quiet (.sets <| .divides (counting_set counts) (Nat.le_of_lt_succ below)) id
  · cases done
    exact advance_links (counting_set counts)

theorem badRequest_links {t : State} (done : execBadRequest s = .next t) : Links c s t := by
  unfold execBadRequest at done
  split at done
  · rename_i f taken took
    obtain ⟨-, -, rest, -, rfl⟩ := takeFrame_fields took
    split at done
    · cases done
      have left : Links c s (s.leaving rest) := .aside rfl
      exact left.trans (answerFrame_links (fun _ _ => .refl) f _)
    · cases done
      exact .refl
  · cases done
    exact .refl

/-! ### Every command -/

/-- Whatever a command does, it does by a chain of stretches. -/
theorem exec_links {t : State} (done : exec c s = .next t) : Links c s t := by
  cases c with
  | writeFrame sdi =>
    cases done
    exact unlessLow_links (receiveFrame_ledger _ _)
  | readFrame clocked =>
    cases done
    exact unlessLow_links rfl
  | readStatus clocked =>
    cases done
    exact unlessLow_links rfl
  | badCommandByte command sdi =>
    cases done
    exact unlessLow_links (transaction_ledger _ _ _)
  | deviceReset =>
    cases done
    exact deviceReset_links
  | resetRelease =>
    cases done
    exact resetRelease_links
  | admenChange level =>
    cases done
    exact .aside rfl
  | siteTimeAdvance => exact siteTimeAdvance_links done
  | leaseExpiry entry =>
    cases done
    exact takeReached_links ..
  | lingerEnd entry =>
    cases done
    exact takeReached_links ..
  | borrowEnd entry =>
    cases done
    exact takeReached_links ..
  | waitDeadline entry =>
    cases done
    exact takeReached_links ..
  | featureEndInstant code =>
    cases done
    exact takeReached_links ..
  | badRequest => exact badRequest_links done
  | checkout => exact serveKind_links checkout_links done
  | renew => exact serveKind_links renew_links done
  | release => exact serveKind_links release_links done
  | borrow => exact serveKind_links borrow_links done
  | giveBack => exact serveKind_links return_links done
  | cancelWait => exact serveKind_links cancelWait_links done
  | queryHolding => exact serveKind_links queryHolding_links done
  | queryPool => exact serveKind_links queryPool_links done
  | nextNotice => exact serveKind_links nextNotice_links done
  | setTime => exact serveKind_links setTime_links done
  | openService => exact serveKind_links openService_links done
  | closeService => exact serveKind_links closeService_links done
  | definePool => exact serveKind_links definePool_links done
  | defineProject => exact serveKind_links defineProject_links done
  | removeProject => exact serveKind_links removeProject_links done
  | defineAllotment => exact serveKind_links defineAllotment_links done
  | removeAllotment => exact serveKind_links removeAllotment_links done
  | defineFeature => exact serveKind_links defineFeature_links done
  | retireFeature => exact serveKind_links retireFeature_links done
  | queryFeature => exact serveKind_links queryFeature_links done
  | writeTerms => exact serveKind_links writeTerms_links done
  | defineUser => exact serveKind_links defineUser_links done
  | defineHost => exact serveKind_links defineHost_links done
  | setNoticeLevels => exact serveKind_links setNoticeLevels_links done
  | clearHoldings => exact serveKind_links clearHoldings_links done
  | refclkPeriod => exact refclkPeriod_links done

/-- A step does nothing, or takes the command in front of the queue and carries it out. -/
theorem step_cases {t : State} (stepped : step s = .next t) :
    t = s ∨ ∃ c rest, s.pending = c :: rest ∧ exec c { s with pending := rest } = .next t := by
  unfold step at stepped
  split at stepped
  · cases stepped
    exact .inl rfl
  · exact .inr ⟨_, _, by assumption, stepped⟩

theorem step_links {t : State} (stepped : step s = .next t) :
    t = s ∨ ∃ c rest, s.pending = c :: rest ∧ Links c s t := by
  rcases step_cases stepped with idle | ⟨c, rest, front, done⟩
  · exact .inl idle
  · have taken : Links c s { s with pending := rest } := .aside rfl
    exact .inr ⟨c, rest, front, taken.trans (exec_links done)⟩

/-- What every act of every command keeps, and what follows it, every step keeps. -/
theorem step_keeps {P : State → Prop} (acts : ∀ c s t, Deed c s t → P s → P t)
    (follows : ∀ s t, Follows s t → P s → P t) {t : State} (stepped : step s = .next t) (holds : P s) : P t := by
  rcases step_links stepped with rfl | ⟨c, rest, -, links⟩
  · exact holds
  · exact links.keeps (acts c) follows holds

end Sys2Proof.Machine
end

section
/-! SUPPORT. What the acts leave unchanged, and the proofs of O59 and O60. -/

namespace Sys2Proof.Machine

open Sys2Proof.Claims

variable {c : Instr} {s t : State}

/-! ### What the acts on entries and accounts leave unchanged -/

@[simp] theorem still_reclamped (s : State) (code : Nat) (new : Feature) :
    (s.reclamped code new).still = s.still := by
  unfold State.reclamped
  split
  · exact still_reclamp ..
  · rfl

@[simp] theorem still_recomputedIf (s : State) (pool : Nat) (recompute : Bool) :
    (s.recomputedIf pool recompute).still = s.still := by
  unfold State.recomputedIf
  split <;> rfl

theorem Handled.still {d : Deadline} (handled : Handled d s t) : t.still = s.still := by
  cases handled with
  | nothing _ => rfl
  | holding _ _ => exact still_uncount ..
  | waiter _ _ => exact still_endWaiter ..
  | feature _ _ => exact still_endFeatureWaiters ..

theorem Follows.still (follows : Follows s t) : t.still = s.still := by
  induction follows with
  | done s => rfl
  | marks mark _ ih => exact ih
  | grants evt _ _ ih => exact ih.trans (still_grantWaiter ..)
  | handles n _ handled _ ih => exact ih.trans handled.still

theorem still_clearedOut (s : State) : s.clearedOut.still = s.still := by
  have emptied : s.emptiedOut.still = s.still := (congrArg State.still (emptiedOut_eq s) :)
  exact (congrArg State.still (clearedOut_eq s) :).trans emptied

theorem Dealing.still (dealing : Dealing s t) : t.still = s.still := by
  cases dealing with
  | shuts => rfl
  | takes _ handled => exact handled.still
  | unlists _ => rfl
  | unmarks _ => rfl
  | renews _ => simp
  | drops _ _ => rfl
  | lingers _ _ => simp
  | converts _ _ => simp
  | ends _ _ _ => simp
  | clears _ => simp
  | cancels _ => simp
  | frees _ => simp
  | joins _ _ _ => simp
  | queues _ _ _ _ => simp
  | resizes _ _ _ => simp
  | reallots _ _ _ => simp
  | allots _ _ _ => simp
  | unallots _ _ => simp
  | creates _ _ _ _ => simp
  | updates _ _ => rfl
  | reclamps _ _ => simp
  | retires _ _ => simp [State.retire]
  | empties _ => exact still_clearedOut s

/-! ### The clock and the service state -/

theorem clock_of_still (same : t.still = s.still) (clock : ClockOk s) : ClockOk t := by
  obtain ⟨-, -, -, -, -, -, -, -, -, -, -, -, -, siteTime, timeState, divider, -⟩ := still_fields same
  exact ⟨siteTime ▸ clock.time_bounded, divider ▸ clock.divider_bounded,
    fun unset => by rw [siteTime, divider]; exact clock.unset_zero (timeState ▸ unset)⟩

theorem clock_of_ledger (same : t.ledger = s.ledger) (clock : ClockOk s) : ClockOk t := by
  have siteTime : t.siteTime = s.siteTime := (congrArg State.siteTime same :)
  have timeState : t.timeState = s.timeState := (congrArg State.timeState same :)
  have divider : t.divider = s.divider := (congrArg State.divider same :)
  exact ⟨siteTime ▸ clock.time_bounded, divider ▸ clock.divider_bounded,
    fun unset => by rw [siteTime, divider]; exact clock.unset_zero (timeState ▸ unset)⟩

theorem siteTime_of_still (same : t.still = s.still) : t.siteTime = s.siteTime := by
  obtain ⟨-, -, -, -, -, -, -, -, -, -, -, -, -, siteTime, -⟩ := still_fields same
  exact siteTime

theorem service_of_still (same : t.still = s.still) : t.service = s.service := by
  obtain ⟨-, -, -, -, -, -, -, -, service, -⟩ := still_fields same
  exact service

theorem Setting.clock (sets : Setting c s t) (clock : ClockOk s) : ClockOk t := by
  obtain ⟨bound, low, zero⟩ := clock
  cases sets with
  | aside same =>
    exact clock_of_ledger same ⟨bound, low, zero⟩
  | resets _ _ => exact ⟨Nat.zero_le _, Nat.zero_le _, fun _ => ⟨rfl, rfl⟩⟩
  | divides counts small => exact ⟨bound, small, fun unset => nomatch counts.symm.trans unset⟩
  | turns counts room _ => exact ⟨room, low, fun unset => nomatch counts.symm.trans unset⟩
  | stepsTo _ small => exact ⟨small, Nat.zero_le _, nofun⟩
  | stepsBack _ counts below _ _ =>
    exact ⟨(Nat.le_of_lt below).trans bound, Nat.zero_le _, fun unset => nomatch counts.symm.trans unset⟩
  | opens _ => exact ⟨bound, low, zero⟩
  | closes => exact ⟨bound, low, zero⟩
  | listsProject _ _ => exact ⟨bound, low, zero⟩
  | unlistsProject _ => exact ⟨bound, low, zero⟩
  | removesUser _ => exact ⟨bound, low, zero⟩
  | definesUser _ _ => exact ⟨bound, low, zero⟩
  | removesHost _ => exact ⟨bound, low, zero⟩
  | definesHost _ _ => exact ⟨bound, low, zero⟩
  | writes _ => exact ⟨bound, low, zero⟩

theorem Deed.clock (deed : Deed c s t) (clock : ClockOk s) : ClockOk t := by
  cases deed with
  | sets sets => exact sets.clock clock
  | deals dealing => exact clock_of_still dealing.still clock

/-- Site time falls in no act but a device reset and a backward step (R128, R129, R140). -/
theorem Setting.siteTime_le (sets : Setting c s t) (clock : ClockOk s) (noReset : c ≠ .deviceReset ∧ c ≠ .resetRelease)
    (noSet : c ≠ .setTime) : s.siteTime ≤ t.siteTime := by
  cases sets with
  | aside same => exact ((congrArg State.siteTime same :) : t.siteTime = s.siteTime).ge
  | resets _ command => exact absurd command (not_or.mpr noReset)
  | divides _ _ => exact le_refl _
  | turns _ _ _ => exact Nat.le_succ _
  | stepsTo ahead _ =>
    rcases ahead with unset | ahead
    · exact (clock.unset_zero unset).1.le.trans (Nat.zero_le _)
    · exact ahead.le
  | stepsBack command _ _ _ _ => exact absurd command noSet
  | opens _ => exact le_refl _
  | closes => exact le_refl _
  | listsProject _ _ => exact le_refl _
  | unlistsProject _ => exact le_refl _
  | removesUser _ => exact le_refl _
  | definesUser _ _ => exact le_refl _
  | removesHost _ => exact le_refl _
  | definesHost _ _ => exact le_refl _
  | writes _ => exact le_refl _

theorem Links.siteTime_le (links : Links c s t) (clock : ClockOk s)
    (noReset : c ≠ .deviceReset ∧ c ≠ .resetRelease) (noSet : c ≠ .setTime) : s.siteTime ≤ t.siteTime := by
  refine (links.keeps (P := fun u => ClockOk u ∧ s.siteTime ≤ u.siteTime) ?_ ?_ ⟨clock, le_refl _⟩).2
  · rintro u v (sets | dealing) ⟨clock, upTo⟩
    · exact ⟨sets.clock clock, upTo.trans (sets.siteTime_le clock noReset noSet)⟩
    · exact ⟨clock_of_still dealing.still clock, upTo.trans (siteTime_of_still dealing.still).ge⟩
  · rintro u v follows ⟨clock, upTo⟩
    exact ⟨clock_of_still follows.still clock, upTo.trans (siteTime_of_still follows.still).ge⟩

/-! ### Set Time while an entry is used (R140) -/

theorem holding_free_of_holdingsFree (free : s.holdingsFree = true) (i : Nat) : (s.holding i).state = .free := by
  rw [State.holding, tableGet]
  cases found : tableFind s.holdings i with
  | none => rfl
  | some h => simpa using List.all_eq_true.mp free _ (mem_of_tableFind found)

theorem waiter_free_of_waitersFree (free : s.waitersFree = true) (j : Nat) : (s.waiter j).state = .free := by
  rw [State.waiter, tableGet]
  cases found : tableFind s.waiters j with
  | none => rfl
  | some w => simpa using List.all_eq_true.mp free _ (mem_of_tableFind found)

theorem stepTo_siteTime (s : State) (v : Nat) : (s.stepTo v).siteTime = v := siteTime_of_still (still_settle _)

theorem setTime_siteTime_le (clock : ClockOk s) (used : SomeEntryUsed s) (f : Frame) :
    s.siteTime ≤ (serveSetTime f s).1.siteTime := by
  simp only [serveSetTime]
  split
  · rename_i unset
    exact (clock.unset_zero unset).1.le.trans (Nat.zero_le _)
  split
  · rename_i ahead
    exact (stepTo_siteTime s _).symm ▸ ahead.le
  split
  · exact le_refl _
  split
  · exact le_refl _
  split
  · exact le_refl _
  · rename_i holdings waiters
    rcases used with ⟨i, used⟩ | ⟨j, used⟩
    · exact absurd (holding_free_of_holdingsFree (by simpa using holdings) i) used
    · exact absurd (waiter_free_of_waitersFree (by simpa using waiters) j) used

/-- The reply that a frame is given leaves the rest of the state as its owner made it. -/
theorem serveKind_next {kind : Nat} {owner : Frame → State → State × Answer} (done : serveKind kind owner s = .next t) :
    t = s ∨ ∃ f rest, s.fifo = f :: rest ∧
      ((∃ r, t = (s.leaving rest).placeReply r) ∨ ∃ r, t = ((owner f (s.leaving rest)).1).placeReply r) := by
  unfold serveKind at done
  split at done
  · rename_i f taken took
    obtain ⟨-, -, rest, front, rfl⟩ := takeFrame_fields took
    split at done
    · cases done
      refine .inr ⟨f, rest, front, ?_⟩
      unfold answerFrame judge
      split_ifs
      · exact .inl ⟨_, rfl⟩
      · exact .inl ⟨_, rfl⟩
      · exact .inl ⟨_, rfl⟩
      · exact .inr ⟨_, rfl⟩
    · cases done
      exact .inl rfl
  · cases done
    exact .inl rfl

theorem execSetTime_siteTime_le (clock : ClockOk s) (used : SomeEntryUsed s) (done : execSetTime s = .next t) :
    s.siteTime ≤ t.siteTime := by
  rcases serveKind_next done with rfl | ⟨f, rest, -, ⟨r, rfl⟩ | ⟨r, rfl⟩⟩
  · exact le_refl _
  · exact le_refl _
  · have left : ClockOk (s.leaving rest) := clock_of_ledger (s := s) rfl clock
    exact setTime_siteTime_le left used f

end Sys2Proof.Machine

namespace Sys2Proof.Claims

open Sys2Proof.Machine

/-- Settles O59: Set Time is the one command that can step back, and it does so only while every entry is FREE; no act
of any other command but a device reset lowers site time. -/
theorem siteTimeNeverFallsWhileAnEntryIsUsed : Obligations.SiteTimeNeverFallsWhileAnEntryIsUsed := by
  intro s t clock used noReset stepped
  rcases step_cases stepped with rfl | ⟨c, rest, front, done⟩
  · exact le_refl _
  have taken : ClockOk { s with pending := rest } := clock_of_ledger (s := s) rfl clock
  by_cases setTime : c = .setTime
  · subst setTime
    exact execSetTime_siteTime_le (s := { s with pending := rest }) taken used done
  · exact (exec_links done).siteTime_le taken (noReset c rest front) setTime

end Sys2Proof.Claims
end

section
/-! SUPPORT. Inductions over the waiters and holdings of one feature, and the proof of O60. -/

namespace Sys2Proof.Machine

open Sys2Proof.Claims

variable {c : Instr} {s t : State}

/-! ### The entries of one feature, one after another -/

/-- A walk over the pairs of a table: what each act keeps, the walk keeps; and where the numbers of the table rise and
an act writes under the number of its pair only, an act finds what the table listed. -/
theorem walk_induct {α : Type} {R : Prop} {l : Table α} {P : State → Prop} {act : State → Nat × α → State}
    (rising : R → TableRising l) (look : State → Nat → α) (apart : ∀ u e k, k ≠ e.1 → look (act u e) k = look u k)
    (keeps : ∀ u e, (R → look u e.1 = e.2) → P u → P (act u e)) {s : State}
    (finds : R → ∀ e ∈ l, look s e.1 = e.2) (holds : P s) : P (l.foldl act s) := by
  induction l generalizing s with
  | nil => exact holds
  | cons e l ih =>
    rw [List.foldl_cons]
    refine ih (fun r => (List.pairwise_cons.mp (rising r)).2) (fun r x listed => ?_)
      (keeps s e (fun r => finds r e List.mem_cons_self) holds)
    have above := (List.pairwise_cons.mp (rising r)).1 x listed
    rw [apart s e x.1 (Nat.ne_of_gt above)]
    exact finds r x (List.mem_cons_of_mem _ listed)

theorem tableGet_of_mem {α : Type} {d : α} {t : Table α} (rising : TableRising t) {e : Nat × α} (listed : e ∈ t) :
    tableGet d t e.1 = e.2 := by
  rw [tableGet, tableFind_of_mem rising (v := e.2) listed]
  rfl

/-- What the ending of a WAITING waiter of the feature keeps, the ending of them all keeps. -/
theorem endFeatureWaiters_induct {P : State → Prop} {code : Nat} {reason : WaiterEnd} {evt : Nat}
    (ends : ∀ u j, (TableRising s.waiters → (u.waiter j).state = .waiting ∧ (u.waiter j).feature = code) → P u →
      P (u.endWaiter j reason evt)) (holds : P s) : P (s.endFeatureWaiters code reason evt) := by
  refine walk_induct (R := TableRising s.waiters) id State.waiter (fun u e k other => ?_) (fun u e found kept => ?_)
    (fun rising e listed => tableGet_of_mem rising listed) holds
  · split
    · simp [endWaiter_eq, other]
    · rfl
  · split
    · rename_i waits
      exact ends u e.1 (fun rising => by rw [found rising]; exact waits) kept
    · exact kept

theorem placeHolding_foldl_waiters {act : State → Nat × Holding → State} (keeps : ∀ u e, (act u e).waiters = u.waiters)
    (l : Table Holding) (u : State) : (l.foldl act u).waiters = u.waiters :=
  foldl_keeps State.waiters act keeps l u

/-- What the lowering of a deadline of the feature keeps, the lowering of them all keeps. -/
theorem reclamp_induct {P : State → Prop} {code e : Nat}
    (holdings : ∀ u i h, h.state.counted = true → h.feature = code → e < h.deadline →
      (TableRising s.holdings → u.holding i = h) → P u → P (u.placeHolding i { h with deadline := e }))
    (waiters : ∀ u j w, w.state = .waiting → w.feature = code → e < w.deadline →
      (TableRising s.waiters → u.waiter j = w) → P u → P (u.placeWaiter j { w with deadline := e }))
    (holds : P s) : P (s.reclamp code e) := by
  have kept : P (s.holdings.foldl
      (fun acc x =>
        if x.2.state.counted ∧ x.2.feature = code ∧ e < x.2.deadline then
          acc.placeHolding x.1 { x.2 with deadline := e }
        else acc) s) := by
    refine walk_induct (R := TableRising s.holdings) id State.holding (fun u x k other => ?_)
      (fun u x found kept => ?_) (fun rising x listed => tableGet_of_mem rising listed) holds
    · split
      · simp [other]
      · rfl
    · split
      · rename_i late
        exact holdings u x.1 x.2 late.1 late.2.1 late.2.2 found kept
      · exact kept
  have same := foldl_keeps State.waiters
    (fun acc (x : Nat × Holding) =>
      if x.2.state.counted ∧ x.2.feature = code ∧ e < x.2.deadline then acc.placeHolding x.1 { x.2 with deadline := e }
      else acc) (fun u x => by split <;> simp) s.holdings s
  rw [State.reclamp]
  simp only [same]
  refine walk_induct (R := TableRising s.waiters) id State.waiter (fun u x k other => ?_) (fun u x found kept => ?_)
    (fun rising x listed => ?_) kept
  · split
    · simp [other]
    · rfl
  · split
    · rename_i late
      exact waiters u x.1 x.2 late.1 late.2.1 late.2.2 found kept
    · exact kept
  · rw [State.waiter, same]
    exact tableGet_of_mem rising listed

/-! ### No waiter is granted in a CLOSED service (R1, R113) -/

/-- The service is CLOSED and a waiter is not GRANTED. -/
def Ungranted (s : State) (j : Nat) : Prop := s.service = .closed ∧ (s.waiter j).state ≠ .granted

variable {j : Nat}

theorem Ungranted.of_same (closed : Ungranted s j) (still : t.still = s.still) (same : t.waiter j = s.waiter j) :
    Ungranted t j := ⟨(service_of_still still).trans closed.1, by rw [same]; exact closed.2⟩

theorem Ungranted.placeWaiter (closed : Ungranted s j) (k : Nat) {w : Waiter} (other : w.state ≠ .granted) :
    Ungranted (s.placeWaiter k w) j := by
  refine ⟨(placeWaiter_service ..).trans closed.1, ?_⟩
  rw [waiter_placeWaiter]
  split
  · exact other
  · exact closed.2

theorem Ungranted.dequeue (closed : Ungranted s j) (pool k : Nat) {w : Waiter} (other : w.state ≠ .granted) :
    Ungranted (s.dequeue pool k w) j :=
  Ungranted.placeWaiter (s := s.leaveQueue pool k) closed k other

theorem Ungranted.endFeatureWaiters (closed : Ungranted s j) (code : Nat) (reason : WaiterEnd) (evt : Nat) :
    Ungranted (s.endFeatureWaiters code reason evt) j :=
  endFeatureWaiters_induct (P := fun u => Ungranted u j) (fun _ _ _ kept => kept.dequeue _ _ nofun) closed

theorem waiter_drainReport (s : State) (code evt k : Nat) : (s.drainReport code evt).waiter k = s.waiter k := by
  rcases drainReport_cases s code evt with same | ⟨-, -, drained⟩
  · rw [same]
  · rw [drained]
    rfl

theorem waiter_uncount (s : State) (i : Nat) (x : Holding) (evt k : Nat) :
    (s.uncount i x evt).waiter k = s.waiter k := by
  rw [State.uncount, waiter_drainReport, waiter_refund, waiter_placeHolding]

theorem Handled.ungranted {d : Deadline} (handled : Handled d s t) (closed : Ungranted s j) : Ungranted t j := by
  cases handled with
  | nothing _ => exact closed
  | holding _ _ => exact closed.of_same (still_uncount ..) (waiter_uncount ..)
  | waiter _ _ => exact closed.dequeue _ _ nofun
  | feature _ _ => exact Ungranted.endFeatureWaiters (s := s.setFeature d.record _) closed ..

theorem Follows.ungranted (follows : Follows s t) (closed : Ungranted s j) : Ungranted t j := by
  induction follows with
  | done s => exact closed
  | marks mark _ ih => exact ih closed
  | grants evt grants _ _ => exact nomatch closed.1.symm.trans grants.opened
  | handles n due handled _ ih => exact ih (handled.ungranted closed)

theorem clearedOut_waiter_state (s : State) (k : Nat) : (s.clearedOut.waiter k).state = .free := by
  have waiters : s.clearedOut.waiters = s.emptiedOut.waiters := (congrArg State.waiters (clearedOut_eq s) :)
  rw [State.waiter, waiters, emptiedOut_waiters, tableGet]
  cases found : tableFind (tableMap Waiter.initial s.waiters Waiter.cleared) k with
  | none => rfl
  | some w =>
    obtain ⟨e, -, made⟩ := List.mem_map.mp (List.mem_filter.mp (mem_of_tableFind found)).1
    obtain ⟨-, rfl⟩ := Prod.mk.inj made
    simp only [Option.getD_some, Waiter.cleared]
    split
    · assumption
    · rfl

theorem Dealing.ungranted (dealing : Dealing s t) (closed : Ungranted s j) : Ungranted t j := by
  have still := dealing.still
  cases dealing with
  | shuts => exact closed
  | takes _ handled => exact handled.ungranted (s := s.taken _) closed
  | unlists _ => exact closed
  | unmarks _ => exact closed
  | renews _ => exact closed.of_same still (waiter_placeHolding ..)
  | drops _ _ => exact closed
  | lingers _ _ => exact closed.of_same still (waiter_placeHolding ..)
  | converts _ _ => exact closed.of_same still (waiter_placeHolding ..)
  | ends _ _ _ => exact closed.of_same still (waiter_uncount ..)
  | clears _ => exact closed.of_same still (waiter_placeHolding ..)
  | cancels _ => exact closed.dequeue _ _ nofun
  | frees _ => exact closed.placeWaiter _ nofun
  | joins _ _ opened => exact nomatch closed.1.symm.trans opened
  | queues _ _ _ _ =>
    refine ⟨(service_of_still still).trans closed.1, ?_⟩
    rw [State.queueCheckout, waiter_joinQueue, waiter_placeWaiter]
    split
    · nofun
    · exact closed.2
  | resizes p capacity borrowCap => exact closed.of_same still (by unfold State.recomputedIf; split <;> rfl)
  | reallots reserve cap _ => exact closed.of_same still (by unfold State.recomputedIf; split <;> rfl)
  | allots _ _ _ => exact closed
  | unallots project pool => exact closed
  | creates _ _ _ _ => exact closed.of_same still (waiter_placeFeature ..)
  | updates _ _ => exact closed
  | reclamps _ _ =>
    refine Ungranted.of_same (s := s.reclamped _ _) ?_ (still_placeFeature ..) (waiter_placeFeature ..)
    unfold State.reclamped
    split
    · refine reclamp_induct (P := fun u => Ungranted u j) (fun _ _ _ _ _ _ _ kept => ?_)
        (fun _ _ w waits _ _ _ kept => kept.placeWaiter _ ?_) closed
      · exact kept.of_same (still_placeHolding ..) (waiter_placeHolding ..)
      · exact fun granted => nomatch waits.symm.trans granted
    · exact closed
  | retires _ _ =>
    exact (Ungranted.endFeatureWaiters (s := s.setFeature _ _) closed _ _ _).of_same (still_drainReport ..)
      (waiter_drainReport ..)
  | empties _ =>
    exact ⟨(service_of_still still).trans closed.1, fun granted => nomatch (clearedOut_waiter_state s j).symm.trans granted⟩

theorem Setting.ungranted (sets : Setting c s t) (noOpening : c ≠ .openService) (closed : Ungranted s j) :
    Ungranted t j := by
  cases sets with
  | aside same =>
    have service : t.service = s.service := (congrArg State.service same :)
    have waiters : t.waiters = s.waiters := (congrArg State.waiters same :)
    exact ⟨service.trans closed.1, by rw [State.waiter, waiters]; exact closed.2⟩
  | resets _ _ => exact ⟨rfl, nofun⟩
  | divides _ _ => exact closed
  | turns _ _ _ => exact closed
  | stepsTo _ _ => exact closed
  | stepsBack _ _ _ _ _ => exact closed
  | opens command => exact absurd command noOpening
  | closes => exact ⟨rfl, closed.2⟩
  | listsProject _ _ => exact closed
  | unlistsProject _ => exact closed
  | removesUser _ => exact closed
  | definesUser _ _ => exact closed
  | removesHost _ => exact closed
  | definesHost _ _ => exact closed
  | writes _ => exact closed

end Sys2Proof.Machine

namespace Sys2Proof.Claims

open Sys2Proof.Machine

/-- Settles O60: only a scan grants, a scan runs in an OPEN service, and only Open Service opens it. -/
theorem noWaiterIsGrantedWhileClosed : Obligations.NoWaiterIsGrantedWhileClosed := by
  intro s t j closed waits noOpening stepped
  have before : Ungranted s j := ⟨closed, fun granted => nomatch waits.symm.trans granted⟩
  rcases step_links stepped with rfl | ⟨c, rest, front, links⟩
  · exact before.2
  have other : c ≠ .openService := fun opening => noOpening rest (opening ▸ front)
  refine (links.keeps (P := fun u => Ungranted u j) ?_ (fun _ _ follows kept => follows.ungranted kept) before).2
  rintro u v (sets | dealing) kept
  · exact sets.ungranted other kept
  · exact dealing.ungranted kept

end Sys2Proof.Claims
end

section
/-! SUPPORT. The lines, the status byte, the decoder's own work and the deadlines that find nothing, and the proofs of
O1, O2, O51, O3, O6, O13, O14 and O15. -/

namespace Sys2Proof.Machine

open Sys2Proof.Claims

variable {s : State}

/-! ### While RESETn is asserted nothing acts but the lines (R169) -/

theorem takeFrame_low (low : s.resetLow = true) : s.takeFrame = none := by
  rw [State.takeFrame, if_pos (.inl low)]

theorem serveKind_none (none : s.takeFrame = none) (kind : Nat) (owner : Frame → State → State × Answer) :
    serveKind kind owner s = .next s := by
  rw [serveKind, none]

theorem execBadRequest_none (none : s.takeFrame = none) : execBadRequest s = .next s := by
  rw [execBadRequest, none]

theorem execBadRequest_taken {f : Frame} {t : State} (took : s.takeFrame = some (f, t)) (bad : isBadRequest f = true) :
    execBadRequest s = .next (answerFrame (fun _ t => (t, plain .badRequest 1)) f t) := by
  simp [execBadRequest, took, bad]

theorem takeFrame_front {f g : Frame} {rest : List Frame} {t : State} (front : s.fifo = f :: rest)
    (took : s.takeFrame = some (g, t)) : g = f := by
  obtain ⟨-, -, more, queue, -⟩ := takeFrame_fields took
  exact (List.cons.inj (queue.symm.trans front)).1

theorem serveKind_other {f : Frame} {rest : List Frame} (front : s.fifo = f :: rest) {kind : Nat}
    (other : kindCode f ≠ kind) (owner : Frame → State → State × Answer) : serveKind kind owner s = .next s := by
  cases took : s.takeFrame with
  | none => exact serveKind_none took kind owner
  | some frame =>
    obtain ⟨g, t⟩ := frame
    cases takeFrame_front front took
    simp [serveKind, took, other]

theorem execBadRequest_good {f : Frame} {rest : List Frame} (front : s.fifo = f :: rest)
    (good : isBadRequest f = false) : execBadRequest s = .next s := by
  cases took : s.takeFrame with
  | none => exact execBadRequest_none took
  | some frame =>
    obtain ⟨g, t⟩ := frame
    cases takeFrame_front front took
    simp [execBadRequest, took, good]

theorem takeReached_none {kind : DeadlineKind} {record : Nat} (none : s.reachedOf kind record = none) :
    s.takeReached kind record = s := by
  rw [State.takeReached, none]

theorem takeReached_low (low : s.resetLow = true) (kind : DeadlineKind) (record : Nat) :
    s.takeReached kind record = s :=
  takeReached_none (by rw [State.reachedOf, if_pos low])

theorem counting_low (low : s.resetLow = true) : s.counting = false := by simp [State.counting, low]

/-- Each command but those of the lines, while RESETn is asserted. -/
theorem exec_low (low : s.resetLow = true) {c : Instr} (noReset : c ≠ .deviceReset) (noRelease : c ≠ .resetRelease)
    (noLevel : ∀ level, c ≠ .admenChange level) : exec c s = .next s := by
  have untaken := takeFrame_low low
  have stays (t : State) : (if s.resetLow then s else t) = s := if_pos low
  have deadline (kind : DeadlineKind) (record : Nat) := congrArg (Host.Outcome.next (φ := Fault) (ρ := Refusal))
    (takeReached_low low kind record)
  cases c with
  | deviceReset => exact absurd rfl noReset
  | resetRelease => exact absurd rfl noRelease
  | admenChange level => exact absurd rfl (noLevel level)
  | writeFrame sdi => exact congrArg _ (stays _)
  | readFrame clocked => exact congrArg _ (stays _)
  | readStatus clocked => exact congrArg _ (stays _)
  | badCommandByte command sdi => exact congrArg _ (stays _)
  | siteTimeAdvance => exact if_pos (counting_low low)
  | refclkPeriod => exact if_pos (counting_low low)
  | leaseExpiry entry => exact deadline _ _
  | lingerEnd entry => exact deadline _ _
  | borrowEnd entry => exact deadline _ _
  | waitDeadline entry => exact deadline _ _
  | featureEndInstant code => exact deadline _ _
  | badRequest => exact execBadRequest_none untaken
  | _ => exact serveKind_none untaken _ _

/-! ### The status byte (R163, R174) -/

/-- The bits of the status byte, each by its condition. -/
theorem statusByte_bits (s : State) :
    s.statusByte.getLsbD 7 = s.rdy ∧ s.statusByte.getLsbD 6 = !s.replies.isEmpty ∧ s.statusByte.getLsbD 5 = s.attn
      ∧ s.statusByte.getLsbD 4 = s.overrun ∧ s.statusByte.getLsbD 3 = s.framing ∧ s.statusByte.getLsbD 2 = s.admen
      ∧ s.statusByte.getLsbD 1 = false ∧ s.statusByte.getLsbD 0 = false := by
  unfold State.statusByte conditionBit
  generalize s.rdy = a, (!s.replies.isEmpty) = b, s.attn = c, s.overrun = d, s.framing = e, s.admen = f
  revert a b c d e f
  decide

theorem attn_iff (s : State) : s.attn = true ↔ ∃ k : NoticeKind, (s.notices.of k).enable = true ∧ s.records k ≠ [] := by
  have every (k : NoticeKind) : k ∈ noticeKinds := by cases k <;> decide
  simp [State.attn, State.calls, every]

theorem exec_readStatus (released : s.resetLow = false) (clocked : Clocked) :
    exec (.readStatus clocked) s = .next (s.statusTransaction clocked) := by
  simp [exec, execReadStatus, released]

theorem exec_badCommandByte (released : s.resetLow = false) (command : Option Byte) (sdi : Sent) :
    exec (.badCommandByte command sdi) s = .next (s.transaction command sdi) := by
  simp [exec, execBadCommandByte, released]

theorem transaction_unknown {b : Byte} (write : b ≠ 1#8) (read : b ≠ 2#8) (status : b ≠ 3#8) (sdi : Sent) :
    s.transaction (some b) sdi = { s.shiftOut [] sdi.clocked with framing := true } := by
  simp [State.transaction, write, read, status]

/-! ### Deadlines that find nothing (R133) -/

theorem reachedOf_some {kind : DeadlineKind} {record : Nat} {d : Deadline} (reached : s.reachedOf kind record = some d) :
    s.resetLow = false ∧ d ∈ s.reached ∧ d.kind = kind ∧ d.record = record := by
  unfold State.reachedOf at reached
  split at reached
  · cases reached
  · rename_i released
    have named := List.find?_some reached
    simp only [Bool.and_eq_true, beq_iff_eq] at named
    exact ⟨by simpa using released, List.mem_of_find?_eq_some reached, named⟩

/-- The taking of a deadline that an advance reached, from what its owner then does. -/
theorem takeReached_some {kind : DeadlineKind} {record : Nat} {d : Deadline} (reached : s.reachedOf kind record = some d) :
    s.takeReached kind record = ((s.taken d).handle d).settle := by
  rw [State.takeReached, reached]

/-- A deadline whose record finds it in another state is taken, and nothing else comes about. -/
theorem takeReached_idle {kind : DeadlineKind} {record : Nat} {d : Deadline} (calm : s.atOnce = [])
    (reached : s.reachedOf kind record = some d) (idle : (s.taken d).handle d = s.taken d) :
    s.takeReached kind record = { s with reached := s.reached.erase d } := by
  rw [takeReached_some reached, idle]
  exact settle_none calm

/-! ### The command that takes the frames of a kind (section 10.6) -/

/-- The command of a kind serves its frames by an owner that answers with a reply that fits. -/
theorem exec_taker {k : Nat} {c : Instr} (taker : takerOf k = some c) :
    ∃ owner, (∀ s, exec c s = serveKind k owner s) ∧ ∀ f s, Served s (owner f s) := by
  unfold takerOf at taker
  split at taker
  · cases taker; exact ⟨_, fun _ => rfl, checkout_served⟩
  · cases taker; exact ⟨_, fun _ => rfl, renew_served⟩
  · cases taker; exact ⟨_, fun _ => rfl, release_served⟩
  · cases taker; exact ⟨_, fun _ => rfl, borrow_served⟩
  · cases taker; exact ⟨_, fun _ => rfl, return_served⟩
  · cases taker; exact ⟨_, fun _ => rfl, cancelWait_served⟩
  · cases taker; exact ⟨_, fun _ => rfl, queryHolding_served⟩
  · cases taker; exact ⟨_, fun _ => rfl, queryPool_served⟩
  · cases taker; exact ⟨_, fun _ => rfl, nextNotice_served⟩
  · cases taker; exact ⟨_, fun _ => rfl, setTime_served⟩
  · cases taker; exact ⟨_, fun _ => rfl, openService_served⟩
  · cases taker; exact ⟨_, fun _ => rfl, closeService_served⟩
  · cases taker; exact ⟨_, fun _ => rfl, definePool_served⟩
  · cases taker; exact ⟨_, fun _ => rfl, defineProject_served⟩
  · cases taker; exact ⟨_, fun _ => rfl, removeProject_served⟩
  · cases taker; exact ⟨_, fun _ => rfl, defineAllotment_served⟩
  · cases taker; exact ⟨_, fun _ => rfl, removeAllotment_served⟩
  · cases taker; exact ⟨_, fun _ => rfl, defineFeature_served⟩
  · cases taker; exact ⟨_, fun _ => rfl, retireFeature_served⟩
  · cases taker; exact ⟨_, fun _ => rfl, queryFeature_served⟩
  · cases taker; exact ⟨_, fun _ => rfl, writeTerms_served⟩
  · cases taker; exact ⟨_, fun _ => rfl, defineUser_served⟩
  · cases taker; exact ⟨_, fun _ => rfl, defineHost_served⟩
  · cases taker; exact ⟨_, fun _ => rfl, setNoticeLevels_served⟩
  · cases taker; exact ⟨_, fun _ => rfl, clearHoldings_served⟩
  · cases taker

theorem judge_served {owner : Frame → State → State × Answer} (serves : ∀ f s, Served s (owner f s)) (f : Frame)
    (s : State) : Served s (judge owner f s) := by
  unfold judge
  split_ifs
  · exact Served.refused ..
  · exact Served.refused ..
  · exact Served.refused ..
  · exact serves f s

/-- The shape of a reply frame: its length, its first word and its tag (R166, R170). -/
theorem replyFrame_shape (f : Frame) {a : Answer} (fits : a.body.length ≤ 17) :
    let r := replyFrame f a
    3 ≤ r.length ∧ r.length ≤ 20 ∧ hiByte (r.getD 0 0#16) = hiByte (f.getD 0 0#16)
      ∧ lengthOf (r.getD 0 0#16) = r.length ∧ r.getD 1 0#16 = f.getD 1 0#16 := by
  intro r
  have length : r.length = 3 + a.body.length := by simp only [r, replyFrame, List.length_cons]; omega
  have first : r.getD 0 0#16 = joinBytes (hiByte (f.getD 0 0#16)) (BitVec.ofNat 8 (3 + a.body.length)) := rfl
  have low : lengthOf (r.getD 0 0#16) = r.length := by
    rw [first, lengthOf, loByte_join, BitVec.toNat_ofNat, length]
    omega
  exact ⟨by omega, by omega, by rw [first, hiByte_join], low, rfl⟩

theorem linked_fields {s t : State} (same : t.linked = s.linked) :
    t.resetLow = s.resetLow ∧ t.admen = s.admen ∧ t.sdo = s.sdo ∧ t.sdoBits = s.sdoBits ∧ t.fifo = s.fifo
      ∧ t.replies = s.replies ∧ t.overrun = s.overrun ∧ t.framing = s.framing ∧ t.pending = s.pending := by
  simpa [State.linked, State.still] using same

/-- A frame answered by an owner leaves one reply more, of the form of R166, and the rest of the link as it was. -/
theorem answerFrame_reply {owner : Frame → State → State × Answer} (serves : ∀ f s, Served s (owner f s)) (f : Frame)
    (s : State) :
    ∃ r, (answerFrame owner f s).replies = s.replies ++ [r]
      ∧ (3 ≤ r.length ∧ r.length ≤ 20 ∧ hiByte (r.getD 0 0#16) = hiByte (f.getD 0 0#16)
        ∧ lengthOf (r.getD 0 0#16) = r.length ∧ r.getD 1 0#16 = f.getD 1 0#16)
      ∧ ∃ t : State, answerFrame owner f s = { t with replies := s.replies ++ [r] } ∧ t.linked = s.linked := by
  obtain ⟨linked, fits⟩ := judge_served serves f s
  obtain ⟨-, -, -, -, -, replies, -⟩ := linked_fields linked
  have placed : (judge owner f s).1.replies ++ [replyFrame f (judge owner f s).2] =
      s.replies ++ [replyFrame f (judge owner f s).2] := congrArg (· ++ _) replies
  exact ⟨_, placed, replyFrame_shape f fits, (judge owner f s).1, by rw [← placed]; rfl, linked⟩

/-- A frame that the decoder's checks refuse is answered with three words, and nothing else changes. -/
theorem answerFrame_judged {owner : Frame → State → State × Answer} {f : Frame} {code : ReplyCode} {detail : Nat}
    (judged : judge owner f s = (s, plain code detail)) :
    answerFrame owner f s =
      s.placeReply [hiByte (f.getD 0 0#16) ++ 3#8, f.getD 1 0#16, outcome code.byte detail] := by
  rw [answerFrame, judged]
  rfl

end Sys2Proof.Machine

namespace Sys2Proof.Claims

open Sys2Proof.Machine

/-- Settles O1: both clauses are the cases of `step`. -/
theorem stepTakesTheCommandInFront : Obligations.StepTakesTheCommandInFront := by
  refine ⟨fun s c rest front => ?_, fun s empty => ?_⟩
  · rw [step, front]
  · rw [step, empty]

/-- Settles O2: each value is that of the field of `State.reset`, and a number that an empty table does not list holds
its reset contents. -/
theorem resetStateHoldsTheStatedValues : Obligations.ResetStateHoldsTheStatedValues := by
  refine ⟨rfl, fun _ => rfl, rfl, rfl, fun _ => rfl, fun _ => rfl, fun _ => rfl, rfl, fun _ => rfl, rfl,
    fun _ => ⟨rfl, rfl⟩, fun _ => ⟨rfl, rfl⟩, ?_⟩
  decide

/-- Settles O51: the tables are empty, every entry is FREE with generation 1, and no deadline is lodged, so that each
invariant speaks of nothing or of a reset entry. -/
theorem resetMeetsEveryInvariant : Obligations.ResetMeetsEveryInvariant := by
  have noHolding {i : Nat} {p : Prop} (counted : (State.reset.holding i).state.counted = true) : p :=
    nomatch counted
  have noWaiter {j : Nat} {p : Prop} (waits : (State.reset.waiter j).state = .waiting) : p := nomatch waits
  have noFeature {code : Nat} {f : Feature} {p : Prop} (known : State.reset.feature code = some f) : p :=
    nomatch known
  exact ⟨⟨Nat.zero_le _, nofun, Nat.zero_le _, nofun⟩,
    ⟨Nat.zero_le _, Nat.zero_le _, fun _ => ⟨rfl, rfl⟩⟩,
    ⟨.nil, ⟨.nil, nofun⟩, .nil, .nil, .nil, .nil, ⟨.nil, nofun⟩, ⟨.nil, nofun⟩, ⟨.nil, nofun⟩⟩,
    ⟨Nat.zero_le _, Nat.zero_le _, Nat.zero_le _, Nat.zero_le _, Nat.zero_le _, Nat.zero_le _⟩,
    ⟨fun _ => ⟨le_refl 1, Nat.le_of_ble_eq_true rfl⟩, fun _ => ⟨le_refl 1, Nat.le_of_ble_eq_true rfl⟩, fun _ => rfl, fun _ _ => rfl, fun _ _ => rfl⟩,
    fun _ => noHolding,
    ⟨fun _ => rfl, fun _ => rfl, fun _ => rfl, nofun⟩,
    fun _ _ => ⟨nofun, fun above => above.elim nofun nofun⟩,
    ⟨fun _ => nofun, fun _ => noWaiter, fun _ => .nil, fun _ => .nil⟩,
    fun _ _ _ known => noFeature known,
    ⟨rfl, nofun⟩,
    ⟨fun _ => noHolding, fun _ => noWaiter⟩,
    fun _ _ _ known => noFeature known,
    .nil⟩

/-- Settles O3: the lines by their definitions, and every other command by what it needs before it acts: RESETn
released, a frame taken, a clock that counts, or a deadline reached. -/
theorem linesActOnTheWholePart : Obligations.LinesActOnTheWholePart := by
  refine ⟨fun s => rfl, fun s low => ?_, fun s released => ?_, fun s level => rfl,
    fun c s low noReset noRelease noLevel => exec_low low noReset noRelease noLevel⟩
  · exact congrArg _ (if_pos low)
  · exact congrArg _ (if_neg (by simp [released]))

/-- Settles O6: the status byte by its bits, and each transaction by what it shifts out. -/
theorem statusAndUnknownTransactions : Obligations.StatusAndUnknownTransactions := by
  intro s released
  obtain ⟨room, reply, attn, flags⟩ := statusByte_bits s
  refine ⟨fun clocked cut => ?_, ?_, ?_, ?_, ?_⟩
  · rw [exec_readStatus released, State.statusTransaction, shiftOut_eq]
    cases clocked <;> rfl
  · rw [room]
    exact decide_eq_true_iff
  · rw [reply]
    simp
  · rw [attn]
    exact attn_iff s
  · obtain ⟨overrun, framing, admen, one, zero⟩ := flags
    refine ⟨overrun, framing, admen, one, zero, fun b sdi cut write read status => ?_, fun sdi cut => ?_⟩
    · rw [exec_badCommandByte released, transaction_unknown write read status, shiftOut_nothing]
      rfl
    · rw [exec_badCommandByte released, State.transaction, State.cutTransaction, leadingBits_eq]

/-- Settles O13: a deadline that was not reached is not taken, and one whose record is in another state is taken by an
owner that finds nothing. -/
theorem deadlineWithoutItsRecordActsOnNothing : Obligations.DeadlineWithoutItsRecordActsOnNothing := by
  intro s n calm
  refine ⟨fun none => congrArg _ (takeReached_none none), fun none => congrArg _ (takeReached_none none),
    fun none => congrArg _ (takeReached_none none), fun none => congrArg _ (takeReached_none none),
    fun none => congrArg _ (takeReached_none none), fun d => ⟨fun reached other => ?_, fun reached other => ?_,
      fun reached other => ?_, fun reached other => ?_, fun reached absent => ?_⟩⟩
  all_goals
    refine congrArg _ (takeReached_idle calm reached ?_)
    obtain ⟨-, -, kind, rfl⟩ := reachedOf_some reached
    rw [State.handle, kind]
  · exact if_neg other
  · exact if_neg other
  · exact if_neg other
  · exact if_neg other
  · have gone : (s.taken d).feature d.record = none := absent
    simp only [State.handleFeatureEnd, gone]

/-- Settles O14: every owner answers with a reply that fits, and the decoder places it whatever its checks say. -/
theorem eachFrameTakenYieldsOneReply : Obligations.EachFrameTakenYieldsOneReply := by
  refine ⟨fun s f rest c taking takes => ?_, fun s k c taker => ?_⟩
  · have took := takeFrame_some taking.released taking.place taking.front
    have answers : ∃ owner, (∀ f s, Served s (owner f s)) ∧ exec c s = .next (answerFrame owner f (s.leaving rest)) := by
      rcases takes with taker | ⟨rfl, bad⟩
      · obtain ⟨owner, serves, served⟩ := exec_taker taker
        exact ⟨owner, served, (serves s).trans (serveKind_taken took rfl owner)⟩
      · exact ⟨_, fun _ _ => Served.refused .., execBadRequest_taken took bad⟩
    obtain ⟨owner, served, done⟩ := answers
    obtain ⟨r, replies, ⟨least, most, kind, length, tag⟩, t, left, linked⟩ := answerFrame_reply served f (s.leaving rest)
    obtain ⟨low, admen, sdo, sdoBits, fifo, -, overrun, framing, pending⟩ := linked_fields linked
    exact ⟨_, r, done.trans (congrArg _ left), fifo, rfl, least, most, kind, length, tag, low, admen, sdo, sdoBits,
      overrun, framing, pending⟩
  · obtain ⟨owner, serves, -⟩ := exec_taker taker
    refine ⟨fun untaken => ?_, fun f rest front other => ?_, fun f rest front good => ?_⟩
    · have none := takeFrame_none untaken
      exact ⟨(serves s).trans (serveKind_none none k owner), execBadRequest_none none⟩
    · exact (serves s).trans (serveKind_other front other owner)
    · exact execBadRequest_good front good

/-- Settles O15: the checks of `judge` in their order; a frame of a wrong length passes the first check, and so its own
command and BAD_REQUEST answer it alike. -/
theorem decoderRefusesInOrder : Obligations.DecoderRefusesInOrder := by
  intro s f rest taking k known refused
  have took := takeFrame_some taking.released taking.place taking.front
  have kindKnown : known ↔ clientKind k = true ∨ adminKind k = true := by simp [known, clientKind, adminKind]
  have answers {owner : Frame → State → State × Answer} {c : Instr} {code : ReplyCode} {detail : Nat}
      (done : exec c s = .next (answerFrame owner f (s.leaving rest)))
      (judged : judge owner f (s.leaving rest) = (s.leaving rest, plain code detail)) :
      exec c s = .next (refused code.byte detail) := by
    rw [done, answerFrame_judged judged]
    rfl
  refine ⟨fun unknown => ?_, fun isKnown wrong => ?_, fun c least most right low taker => ?_⟩
  · have none : (!clientKind (kindCode f) && !adminKind (kindCode f)) = true := by
      rw [kindKnown, not_or] at unknown
      simpa using unknown
    exact answers (code := .badRequest) (execBadRequest_taken took (by simp [isBadRequest, none]))
      (by rw [judge, if_pos none])
  · have some : ¬(!clientKind (kindCode f) && !adminKind (kindCode f)) = true := by
      rw [kindKnown] at isKnown
      simp only [Bool.and_eq_true, Bool.not_eq_true', not_and_or, Bool.not_eq_false]
      exact isKnown
    have judged (owner : Frame → State → State × Answer) :
        judge owner f (s.leaving rest) = (s.leaving rest, plain .badRequest 2) := by
      rw [judge, if_neg some, if_pos (by simp [show lengthTaken (kindCode f) f.length = false from wrong])]
    refine ⟨?_, fun c taker => ?_⟩
    · have bad : isBadRequest f = true := by
        simp [isBadRequest, show lengthTaken (kindCode f) f.length = false from wrong]
      exact answers (code := .badRequest) (execBadRequest_taken took bad) (judged _)
    · obtain ⟨owner, serves, -⟩ := exec_taker taker
      exact answers (code := .badRequest) ((serves s).trans (serveKind_taken took rfl owner)) (judged owner)
  · obtain ⟨owner, serves, -⟩ := exec_taker taker
    have admin : adminKind (kindCode f) = true := by simpa [adminKind] using ⟨least, most⟩
    have judged : judge owner f (s.leaving rest) = (s.leaving rest, plain .notAdmin 0) := by
      simp [judge, admin, show lengthTaken (kindCode f) f.length = true from right, low]
    exact answers (code := .notAdmin) ((serves s).trans (serveKind_taken took rfl owner)) judged

end Sys2Proof.Claims
end

section
/-! SUPPORT. How the client requests check what they carry, how a path and an entry are chosen, and how Next Notice
chooses its record: the proofs of O16, O20, O21, O23, O24 and O33. -/

namespace Sys2Proof.Machine

open Sys2Proof.Claims

variable {s : State} {f : Frame}

/-- A request that its owner refuses: one reply of three words, and nothing else changes. -/
theorem serveKind_refused {w tag : Word} {more : Frame} {rest : List Frame} (taking : Taking s (w :: tag :: more) rest)
    {kind : Byte} (hk : hiByte w = kind) (hl : lengthTaken kind.toNat (more.length + 2) = true)
    (hc : clientKind kind.toNat = true ∨ (adminKind kind.toNat = true ∧ s.admen = true))
    {owner : Frame → State → State × Answer} {code : ReplyCode} {detail : Nat}
    (refuses : owner (w :: tag :: more) (s.leaving rest) = (s.leaving rest, plain code detail)) :
    serveKind kind.toNat owner s = turned s rest kind tag code.byte detail :=
  serveKind_reply taking hk hl hc refuses

/-! ### Requests about a holding or a waiter: their fields, and the entry that they name -/

theorem serveRenew_outside (outside : 8192 ≤ field f 2) : serveRenew f s = (s, badField 2) := if_pos outside

theorem serveRenew_stale (inside : field f 2 < 8192) (stale : s.handleNames (field f 2) (field f 3) = none) :
    serveRenew f s = (s, plain .noHolding 0) := by
  rw [serveRenew, if_neg (Nat.not_le.mpr inside), stale]

theorem serveRenew_named {h : Holding} (inside : field f 2 < 8192)
    (named : s.handleNames (field f 2) (field f 3) = some h) : serveRenew f s = s.renewHolding (field f 2) h := by
  rw [serveRenew, if_neg (Nat.not_le.mpr inside), named]

theorem serveReturn_outside (outside : 8192 ≤ field f 2) : serveReturn f s = (s, badField 2) := if_pos outside

theorem serveReturn_stale (inside : field f 2 < 8192) (stale : s.handleNames (field f 2) (field f 3) = none) :
    serveReturn f s = (s, plain .noHolding 0) := by
  rw [serveReturn, if_neg (Nat.not_le.mpr inside), stale]

theorem serveReturn_named {h : Holding} (inside : field f 2 < 8192)
    (named : s.handleNames (field f 2) (field f 3) = some h) : serveReturn f s = s.returnHolding (field f 2) h := by
  rw [serveReturn, if_neg (Nat.not_le.mpr inside), named]

theorem serveCancelWait_outside (outside : 256 ≤ field f 2) : serveCancelWait f s = (s, badField 2) := if_pos outside

theorem serveCancelWait_stale (inside : field f 2 < 256) (stale : s.ticketNames (field f 2) (field f 3) = none) :
    serveCancelWait f s = (s, plain .noTicket 0) := by
  rw [serveCancelWait, if_neg (Nat.not_le.mpr inside), stale]

theorem ticketNames_stale {index gen : Nat}
    (stale : (s.waiter index).gen ≠ gen ∨ (s.waiter index).state = .free) : s.ticketNames index gen = none :=
  if_neg fun names => stale.elim (· names.1) names.2

/-- Of two checks the word of the first that fails is named. -/
theorem firstBadWord_pair (m n : Nat) (a b : Bool) :
    firstBadWord [(m, a), (n, b)] = if a then some m else if b then some n else none := by
  cases a <;> cases b <;> rfl

theorem releaseBadWord (inside : field f 2 < 8192) :
    firstBadWord [(2, decide (Config.holdingEntries ≤ field f 2)), (4, decide (1 < field f 4))] =
      if 1 < field f 4 then some 4 else none := by
  rw [firstBadWord_pair, decide_eq_false (Nat.not_le.mpr inside)]
  simp

theorem serveRelease_outside (outside : 8192 ≤ field f 2) : serveRelease f s = (s, badField 2) := by
  rw [serveRelease, firstBadWord_pair, decide_eq_true (p := Config.holdingEntries ≤ field f 2) outside]
  rfl

theorem serveRelease_badFlag (inside : field f 2 < 8192) (flag : 1 < field f 4) :
    serveRelease f s = (s, badField 4) := by
  rw [serveRelease, releaseBadWord inside, if_pos flag]

theorem serveRelease_stale (inside : field f 2 < 8192) (flag : field f 4 ≤ 1)
    (stale : s.handleNames (field f 2) (field f 3) = none) : serveRelease f s = (s, plain .noHolding 0) := by
  rw [serveRelease, releaseBadWord inside, if_neg (Nat.not_lt.mpr flag), stale]

theorem serveRelease_named {h : Holding} (inside : field f 2 < 8192) (flag : field f 4 ≤ 1)
    (named : s.handleNames (field f 2) (field f 3) = some h) :
    serveRelease f s = s.releaseHolding (field f 2) h (field f 4 == 1) := by
  rw [serveRelease, releaseBadWord inside, if_neg (Nat.not_lt.mpr flag), named]

theorem serveBorrow_closed (closed : s.service = .closed) : serveBorrow f s = (s, plain .closed 0) := if_pos closed

theorem serveBorrow_opened (opened : s.service = .opened) :
    serveBorrow f s =
      match firstBadWord [(2, decide (Config.holdingEntries ≤ field f 2)), (4, field f 4 == 0)] with
      | some w => (s, badField w)
      | none =>
        match s.handleNames (field f 2) (field f 3) with
        | none => (s, plain .noHolding 0)
        | some h => s.borrowHolding (field f 2) h (field f 4) :=
  if_neg (by simp [opened])

theorem serveBorrow_outside (opened : s.service = .opened) (outside : 8192 ≤ field f 2) :
    serveBorrow f s = (s, badField 2) := by
  rw [serveBorrow_opened opened, firstBadWord_pair,
    decide_eq_true (p := Config.holdingEntries ≤ field f 2) outside]
  rfl

theorem borrowBadWord (inside : field f 2 < 8192) :
    firstBadWord [(2, decide (Config.holdingEntries ≤ field f 2)), (4, field f 4 == 0)] =
      if field f 4 = 0 then some 4 else none := by
  rw [firstBadWord_pair, decide_eq_false (Nat.not_le.mpr inside)]
  simp

theorem serveBorrow_noDays (opened : s.service = .opened) (inside : field f 2 < 8192) (days : field f 4 = 0) :
    serveBorrow f s = (s, badField 4) := by
  rw [serveBorrow_opened opened, borrowBadWord inside, if_pos days]

theorem serveBorrow_stale (opened : s.service = .opened) (inside : field f 2 < 8192) (days : field f 4 ≠ 0)
    (stale : s.handleNames (field f 2) (field f 3) = none) : serveBorrow f s = (s, plain .noHolding 0) := by
  rw [serveBorrow_opened opened, borrowBadWord inside, if_neg days, stale]

theorem serveBorrow_named {h : Holding} (opened : s.service = .opened) (inside : field f 2 < 8192)
    (days : field f 4 ≠ 0) (named : s.handleNames (field f 2) (field f 3) = some h) :
    serveBorrow f s = s.borrowHolding (field f 2) h (field f 4) := by
  rw [serveBorrow_opened opened, borrowBadWord inside, if_neg days, named]

/-! ### What the state of a holding refuses -/

theorem renewHolding_lingering {h : Holding} (state : h.state = .lingering) (i : Nat) :
    s.renewHolding i h = (s, plain .ended 1) := by rw [State.renewHolding, state]

theorem renewHolding_lapsed {h : Holding} (state : h.state = .lapsed) (i : Nat) :
    s.renewHolding i h = (s, plain .ended 2) := by rw [State.renewHolding, state]

theorem renewHolding_borrowed {h : Holding} (state : h.state = .borrowed) (i : Nat) :
    s.renewHolding i h = (s, plain .borrowed 0) := by rw [State.renewHolding, state]

theorem releaseHolding_lingering {h : Holding} (state : h.state = .lingering) (i : Nat) (now : Bool) :
    s.releaseHolding i h now = (s, plain .ended 1) := by rw [State.releaseHolding, state]

theorem releaseHolding_lapsed {h : Holding} (state : h.state = .lapsed) (i : Nat) (now : Bool) :
    s.releaseHolding i h now = (s, plain .ended 2) := by rw [State.releaseHolding, state]

theorem releaseHolding_borrowed {h : Holding} (state : h.state = .borrowed) (i : Nat) (now : Bool) :
    s.releaseHolding i h now = (s, plain .borrowed 0) := by rw [State.releaseHolding, state]

theorem borrowHolding_lingering {h : Holding} (state : h.state = .lingering) (i days : Nat) :
    s.borrowHolding i h days = (s, plain .ended 1) := by rw [State.borrowHolding, state]

theorem borrowHolding_lapsed {h : Holding} (state : h.state = .lapsed) (i days : Nat) :
    s.borrowHolding i h days = (s, plain .ended 2) := by rw [State.borrowHolding, state]

theorem borrowHolding_borrowed {h : Holding} (state : h.state = .borrowed) (i days : Nat) :
    s.borrowHolding i h days = (s, plain .borrowed 0) := by rw [State.borrowHolding, state]

theorem returnHolding_live {h : Holding} (state : h.state = .live) (i : Nat) :
    s.returnHolding i h = (s, plain .notBorrowed 0) := by rw [State.returnHolding, state]

theorem returnHolding_lingering {h : Holding} (state : h.state = .lingering) (i : Nat) :
    s.returnHolding i h = (s, plain .notBorrowed 0) := by rw [State.returnHolding, state]

theorem returnHolding_lapsed {h : Holding} (state : h.state = .lapsed) (i : Nat) :
    s.returnHolding i h = (s, plain .ended 2) := by rw [State.returnHolding, state]

/-- A handle of the entry's generation names it in every state but FREE. -/
theorem handleNames_state {index gen : Nat} {st : HoldingState} (current : (s.holding index).gen = gen)
    (state : (s.holding index).state = st) (used : st ≠ .free) : s.handleNames index gen = some (s.holding index) :=
  handleNames_named current (state ▸ used)

/-! ### The checks of Checkout (R74 to R76) -/

theorem serveCheckout_closed (closed : s.service = .closed) : serveCheckout f s = (s, plain .closed 0) := if_pos closed

theorem serveCheckout_badField {w : Nat} (opened : s.service = .opened) (bad : checkoutBadWord f = some w) :
    serveCheckout f s = (s, badField w) := by
  simp [serveCheckout, opened, bad]

theorem checkoutBadWord_some {n : Nat}
    (bad : (field f 2 = 0 ∧ n = 2) ∨ (field f 2 ≠ 0 ∧ field f 3 = 0 ∧ n = 3)
      ∨ (field f 2 ≠ 0 ∧ field f 3 ≠ 0 ∧ field f 4 = 0 ∧ n = 4)
      ∨ (field f 2 ≠ 0 ∧ field f 3 ≠ 0 ∧ field f 4 ≠ 0 ∧ (field f 6 = 0 ∨ 16 < field f 6) ∧ n = 6)) :
    checkoutBadWord f = some n := by
  rcases bad with ⟨feature, rfl⟩ | ⟨feature, user, rfl⟩ | ⟨feature, user, host, rfl⟩ | ⟨feature, user, host, seats, rfl⟩
  · simp [checkoutBadWord, firstBadWord, feature]
  · simp [checkoutBadWord, firstBadWord, feature, user]
  · simp [checkoutBadWord, firstBadWord, feature, user, host]
  · simp [checkoutBadWord, firstBadWord, feature, user, host, seats]

section Refused

variable {a : Asking} {g : Feature}

theorem checkoutRefusal_unknown (absent : s.feature a.feature = none) :
    s.checkoutRefusal a = some (plain .unknownFeature 0) := by
  rw [State.checkoutRefusal, absent]

theorem checkoutRefusal_retired (known : s.feature a.feature = some g) (retiring : g.state = .retiring) :
    s.checkoutRefusal a = some (plain .retired 0) := by
  simp [State.checkoutRefusal, known, retiring]

theorem checkoutRefusal_notYet (known : s.feature a.feature = some g) (active : g.state = .active)
    (early : s.siteTime < g.startInstant) : s.checkoutRefusal a = some (plain .notYet 0) := by
  simp [State.checkoutRefusal, known, active, early]

theorem checkoutRefusal_expired (known : s.feature a.feature = some g) (active : g.state = .active)
    (begun : ¬s.siteTime < g.startInstant) (ended : g.ended s.siteTime = true) :
    s.checkoutRefusal a = some (plain .expired 0) := by
  simp [State.checkoutRefusal, known, active, begun, ended]

theorem checkoutRefusal_barred (known : s.feature a.feature = some g) (licensed : Licensed g s.siteTime)
    (barred : Barred s a.user) : s.checkoutRefusal a = some (plain .barred 0) := by
  have standing : s.isBarred a.user = true := (isBarred_iff s a.user).mpr barred
  have unended : g.ended s.siteTime = false := ended_of_licensed licensed
  obtain ⟨active, started, -⟩ := licensed
  have begun : ¬s.siteTime < g.startInstant := Nat.not_lt.mpr started
  simp [State.checkoutRefusal, known, active, begun, unended, standing]

theorem checkoutRefusal_unknownProject (known : s.feature a.feature = some g) (licensed : Licensed g s.siteTime)
    (standing : ¬Barred s a.user) (named : a.project ≠ 0) (unlisted : a.project ∉ s.projects) :
    s.checkoutRefusal a = some (plain .unknownProject 0) := by
  have unbarred : s.isBarred a.user = false := Bool.eq_false_iff.mpr (mt (isBarred_iff s a.user).mp standing)
  have unended : g.ended s.siteTime = false := ended_of_licensed licensed
  obtain ⟨active, started, -⟩ := licensed
  have begun : ¬s.siteTime < g.startInstant := Nat.not_lt.mpr started
  simp [State.checkoutRefusal, known, active, begun, unended, unbarred, named, unlisted]

theorem checkoutRefusal_denied {offset : Nat} (known : s.feature a.feature = some g)
    (licensed : Licensed g s.siteTime) (standing : ¬Barred s a.user)
    (project : a.project = 0 ∨ a.project ∈ s.projects) (denied : s.verdict g (s.ruleInputs a) = (false, offset)) :
    s.checkoutRefusal a = some (plain .deniedRule offset) := by
  rw [checkoutRefusal_verdict known licensed standing project, denied]
  rfl

end Refused

/-! ### The choice of a path (R67 to R69, R77) and of an entry (R71) -/

/-- A search by a test that unlisted contents fail finds a pair whose contents stand under its number. -/
theorem find?_table_some {α : Type} {t : Table α} (rising : TableRising t) {d : α} {test : α → Bool} {e : Nat × α}
    (found : t.find? (fun e : Nat × α => test e.2) = some e) : e.2 = tableGet d t e.1 ∧ test (tableGet d t e.1) = true := by
  have same : tableGet d t e.1 = e.2 := tableGet_of_mem rising (List.mem_of_find?_eq_some found)
  exact ⟨same.symm, same ▸ List.find?_some (p := fun e : Nat × α => test e.2) found⟩

theorem find?_table_none {α : Type} {t : Table α} {d : α} {test : α → Bool} (unlisted : test d = false)
    (none : t.find? (fun e : Nat × α => test e.2) = none) (i : Nat) : test (tableGet d t i) = false := by
  rw [tableGet]
  cases found : tableFind t i with
  | none => exact unlisted
  | some v => simpa using List.find?_eq_none.mp none _ (mem_of_tableFind found)

/-- The order by time and then by index leaves no two pairs that each come before the other, and orders every two. -/
theorem timeThenIndex_false_iff (a b : Nat × Nat) :
    timeThenIndex b a = false ↔ a.1 < b.1 ∨ (a.1 = b.1 ∧ a.2 ≤ b.2) := by
  simp only [timeThenIndex, Bool.or_eq_false_iff, decide_eq_false_iff_not, Bool.and_eq_false_iff, beq_eq_false_iff_ne]
  omega

/-- The first element in the order by time and then by index (R147, R69, R71). -/
theorem firstBy_timeThenIndex {α : Type} {g : α → Nat × Nat} {l : List α} {x : α}
    (first : firstBy (fun x y => timeThenIndex (g x) (g y)) l = some x) {y : α} (listed : y ∈ l) :
    (g x).1 < (g y).1 ∨ ((g x).1 = (g y).1 ∧ (g x).2 ≤ (g y).2) := by
  have least := firstBy_first (before := fun x y => timeThenIndex (g x) (g y)) (fun a b c => ?_) (fun a b => ?_)
    (fun a => ?_) first y listed
  · exact (timeThenIndex_false_iff _ _).mp least
  · simp only [timeThenIndex_false_iff]
    omega
  · intro before
    simp only [timeThenIndex, Bool.or_eq_true, decide_eq_true_eq, Bool.and_eq_true, beq_iff_eq] at before
    rw [timeThenIndex_false_iff]
    omega
  · exact (timeThenIndex_false_iff _ _).mpr (.inr ⟨rfl, le_refl _⟩)

theorem sharesMergeKey_iff (sharing : Sharing) (a : Asking) (h : Holding) :
    sharesMergeKey sharing a h = true ↔
      (h.state = .live ∨ h.state = .lingering) ∧ h.feature = a.feature ∧ h.user = a.user ∧ h.project = a.project
        ∧ (sharing ≠ .user → h.host = a.host) := by
  simp only [sharesMergeKey, Bool.and_eq_true, Bool.or_eq_true, beq_iff_eq, and_assoc, imp_iff_not_or, not_not, ne_eq]

theorem sharesReattachKey_iff (a : Asking) (h : Holding) :
    sharesReattachKey a h = true ↔
      h.state = .lingering ∧ h.feature = a.feature ∧ h.user = a.user ∧ h.host = a.host ∧ h.project = a.project := by
  simp only [sharesReattachKey, Bool.and_eq_true, beq_iff_eq, and_assoc]

/-- The path for a feature of kind USER or STATION: by the holding that the key index finds (R68, R77). -/
theorem choosePath_shared (sharing : Sharing) (kind : sharing ≠ .separate) (a : Asking) :
    (∃ e, s.sharedEntry sharing a = some e
      ∧ s.choosePath sharing a = if e.2.state = .live then .merge e.1 else .reattach e.1)
    ∨ (s.sharedEntry sharing a = none ∧ s.choosePath sharing a = .fresh) := by
  cases sharing with
  | separate => exact absurd rfl kind
  | user => cases found : s.sharedEntry .user a <;> simp [State.choosePath, found]
  | station => cases found : s.sharedEntry .station a <;> simp [State.choosePath, found]

/-- The path for a feature of kind SEPARATE: by the first holding of the reattach set (R69, R77). -/
theorem choosePath_separate (a : Asking) :
    (∃ e, s.reattachEntry a = some e ∧ s.choosePath .separate a = .reattach e.1)
    ∨ (s.reattachEntry a = none ∧ s.choosePath .separate a = .fresh) := by
  cases found : s.reattachEntry a <;> simp [State.choosePath, found]

theorem mem_filter_holdings (rising : TableRising s.holdings) {test : Holding → Bool}
    (unlisted : test Holding.initial = false) (i : Nat) :
    (i, s.holding i) ∈ s.holdings.filter (fun e => test e.2) ↔ test (s.holding i) = true := by
  rw [List.mem_filter]
  refine ⟨And.right, fun passes => ⟨?_, passes⟩⟩
  rw [mem_iff_tableFind rising, State.holding, tableGet]
  cases found : tableFind s.holdings i with
  | none => simp [State.holding, tableGet, found, unlisted] at passes
  | some h => rfl

theorem of_mem_filter_holdings (rising : TableRising s.holdings) {test : Holding → Bool} {e : Nat × Holding}
    (listed : e ∈ s.holdings.filter (fun e => test e.2)) : e.2 = s.holding e.1 ∧ test (s.holding e.1) = true := by
  have same : s.holding e.1 = e.2 := tableGet_of_mem rising (List.mem_of_mem_filter listed)
  exact ⟨same.symm, same ▸ (List.mem_filter.mp listed).2⟩

/-! ### The kind that Next Notice chooses (R148) -/

/-- Of a list whose positions rise, the first in the order by falling level has the highest level, and among those of
its level the lowest position. -/
theorem firstBy_level {α : Type} {level position : α → Nat} {l : List α}
    (rising : l.Pairwise (fun a b => position a < position b)) {x : α}
    (first : firstBy (fun a b => decide (level b < level a)) l = some x) {y : α} (listed : y ∈ l) :
    level y < level x ∨ (level y = level x ∧ position x ≤ position y) := by
  induction l generalizing x y with
  | nil => cases listed
  | cons z l ih =>
    obtain ⟨above, rising⟩ := List.pairwise_cons.mp rising
    rw [firstBy] at first
    split at first
    · rename_i alone
      cases first
      rw [firstBy_none] at alone
      subst alone
      simp [List.mem_singleton.mp listed]
    · rename_i w best
      have behind : position z < position w := above w (firstBy_mem best)
      rcases List.mem_cons.mp listed with rfl | listed
      · split at first
        · cases first
          simp_all
        · cases first
          exact .inr ⟨rfl, le_refl _⟩
      · have beaten := ih rising best listed
        split at first
        · cases first
          exact beaten
        · cases first
          rename_i notBefore
          simp only [decide_eq_true_eq, not_lt] at notBefore
          have behind' := above y listed
          omega

theorem mem_noticeKinds (k : NoticeKind) : k ∈ noticeKinds := by cases k <;> decide

theorem position_injective {j k : NoticeKind} (same : j.position = k.position) : j = k := by
  cases j <;> cases k <;> first | rfl | cases same

theorem ofPosition_position (k : NoticeKind) : NoticeKind.ofPosition k.position = some k := by cases k <;> rfl

theorem ofPosition_none {n : Nat} (beyond : 5 < n) : NoticeKind.ofPosition n = none := by
  unfold NoticeKind.ofPosition
  split <;> simp_all

theorem calls_iff (k : NoticeKind) : s.calls k = true ↔ (s.notices.of k).enable = true ∧ s.records k ≠ [] := by
  simp [State.calls]

/-- The kind of the highest level, and among those of its level the one of lowest position, is the kind chosen. -/
theorem chosenKind_some {k : NoticeKind} (calls : s.calls k = true)
    (first : ∀ j, s.calls j = true → (s.notices.of j).level < (s.notices.of k).level
      ∨ ((s.notices.of j).level = (s.notices.of k).level ∧ k.position ≤ j.position)) : s.chosenKind = some k := by
  have listed {j : NoticeKind} (calling : s.calls j = true) : j ∈ noticeKinds.filter s.calls :=
    List.mem_filter.mpr ⟨mem_noticeKinds j, calling⟩
  have rising : (noticeKinds.filter s.calls).Pairwise (fun a b => a.position < b.position) :=
    List.Pairwise.sublist List.filter_sublist (by decide)
  cases chosen : s.chosenKind with
  | none => simp [firstBy_none.mp chosen] at listed; exact absurd calls (by simp [listed])
  | some j =>
    have calling : s.calls j = true := (List.mem_filter.mp (firstBy_mem chosen)).2
    have before := firstBy_level (level := fun k => (s.notices.of k).level) rising chosen (listed calls)
    have after := first j calling
    have same : j.position = k.position := by omega
    rw [position_injective same]

theorem chosenKind_none (silent : ∀ k, s.calls k = false) : s.chosenKind = none :=
  firstBy_none.mpr (List.filter_eq_nil_iff.mpr fun k _ => Bool.not_eq_true _ ▸ silent k)

theorem report_none {k : NoticeKind} (empty : s.records k = []) : s.report k = (s, plain .noNotice 0) := by
  have oldest : s.oldest k = none := firstBy_none.mpr empty
  rw [State.report, oldest]

theorem serveNextNotice_any {k : NoticeKind} (any : field f 2 = 0) (chosen : s.chosenKind = some k) :
    serveNextNotice f s = s.report k := by
  rw [serveNextNotice, if_pos any, chosen]

theorem serveNextNotice_noKind (any : field f 2 = 0) (none : s.chosenKind = none) :
    serveNextNotice f s = (s, plain .noNotice 0) := by
  rw [serveNextNotice, if_pos any, none]

theorem serveNextNotice_kind {k : NoticeKind} (named : field f 2 = k.position) :
    serveNextNotice f s = s.report k := by
  have someKind : field f 2 ≠ 0 := by cases k <;> simp [named, NoticeKind.position]
  rw [serveNextNotice, if_neg someKind, named, ofPosition_position]

theorem serveNextNotice_beyond (beyond : 5 < field f 2) : serveNextNotice f s = (s, badField 2) := by
  rw [serveNextNotice, if_neg (by omega), ofPosition_none beyond]

end Sys2Proof.Machine

namespace Sys2Proof.Claims

open Sys2Proof.Machine

/-- Settles O20: a search of the key index finds a holding of the key, and the first of the reattach set is the one whose
linger ends soonest. -/
theorem pathFollowsTheKeyIndex : Obligations.PathFollowsTheKeyIndex := by
  intro s sharing a tables keyed
  have rising := tables.holdings_canonical.1
  refine ⟨fun kind => ?_, fun separate => ?_⟩
  · have keyed_iff (i : Nat) : sharesMergeKey sharing a (s.holding i) = true ↔
        ((s.holding i).state = .live ∨ (s.holding i).state = .lingering) ∧ keyed i := sharesMergeKey_iff ..
    rcases choosePath_shared sharing kind a with ⟨e, found, path⟩ | ⟨none, path⟩
    · obtain ⟨entry, passes⟩ := find?_table_some (d := Holding.initial) rising found
      obtain ⟨state, key⟩ := (keyed_iff e.1).mp passes
      have atEntry : e.2.state = (s.holding e.1).state := congrArg Holding.state entry
      by_cases live : e.2.state = .live
      · rw [path, if_pos live]
        refine ⟨fun i merge => ?_, nofun, nofun, fun unkeyed => absurd (atEntry ▸ live) (unkeyed e.1 key).1⟩
        cases merge
        exact ⟨atEntry ▸ live, key⟩
      · rw [path, if_neg live]
        have lingers : (s.holding e.1).state = .lingering := state.resolve_left (atEntry ▸ live)
        refine ⟨nofun, fun i reattach => ?_, nofun, fun unkeyed => absurd lingers (unkeyed e.1 key).2⟩
        cases reattach
        exact ⟨lingers, key⟩
    · rw [path]
      refine ⟨nofun, nofun, fun _ i key => ?_, fun _ => rfl⟩
      have fails : sharesMergeKey sharing a (s.holding i) = false :=
        find?_table_none (d := Holding.initial) rfl none i
      rw [← Bool.not_eq_true, keyed_iff] at fails
      tauto
  · subst separate
    have keyed_iff (i : Nat) : sharesReattachKey a (s.holding i) = true ↔
        (s.holding i).state = .lingering ∧ keyed i := by
      rw [sharesReattachKey_iff]
      simp only [keyed]
      tauto
    rcases choosePath_separate (s := s) a with ⟨e, found, path⟩ | ⟨none, path⟩
    · obtain ⟨entry, passes⟩ := of_mem_filter_holdings rising (firstBy_mem found)
      obtain ⟨state, key⟩ := (keyed_iff e.1).mp passes
      rw [path]
      refine ⟨nofun, fun i reattach => ?_, nofun, fun unkeyed => absurd state (unkeyed e.1 key)⟩
      cases reattach
      refine ⟨state, key, fun k other lingers => ?_⟩
      have listed := (mem_filter_holdings rising (test := sharesReattachKey a) rfl k).mpr
        ((keyed_iff k).mpr ⟨lingers, other⟩)
      simpa [entry] using firstBy_timeThenIndex (g := fun x : Nat × Holding => (x.2.deadline, x.1)) found listed
    · rw [path]
      refine ⟨nofun, nofun, fun _ i key lingers => ?_, fun _ => rfl⟩
      have listed := (mem_filter_holdings rising (test := sharesReattachKey a) rfl i).mpr
        ((keyed_iff i).mpr ⟨lingers, key⟩)
      rw [firstBy_none.mp none] at listed
      cases listed

/-- Settles O21: the search from entry 0 up for a FREE entry, and behind it the first LAPSED one by event time. -/
theorem allocationTakesFreeThenOldestLapsed : Obligations.AllocationTakesFreeThenOldestLapsed := by
  intro s tables
  have rising := tables.holdings_canonical.1
  have lapsed_iff (k : Nat) : (k, s.holding k) ∈ s.holdings.filter (fun e => e.2.state == .lapsed) ↔
      (s.holding k).state = .lapsed := by
    rw [mem_filter_holdings rising (test := fun h => h.state == .lapsed) rfl k, beq_iff_eq]
  cases free : s.freeEntry with
  | some i =>
    obtain ⟨-, inside, isFree, lower⟩ := lowestFrom_some free
    have allocated : s.allocate = some i := by rw [State.allocate, free]
    rw [allocated]
    refine ⟨fun k same => ?_, nofun, fun none => absurd (beq_iff_eq.mp isFree) (none.1 i (by simpa using inside))⟩
    cases same
    exact .inl ⟨by simpa using inside, beq_iff_eq.mp isFree,
      fun k below => beq_eq_false_iff_ne.mp (lower k (Nat.zero_le _) below)⟩
  | none =>
    have noneFree (k : Nat) (inside : k < 8192) : (s.holding k).state ≠ .free :=
      beq_eq_false_iff_ne.mp (lowestFrom_none free k (Nat.zero_le _) (by simpa using inside))
    have allocated : s.allocate = s.lapsedEntry := by rw [State.allocate, free]
    rw [allocated, State.lapsedEntry]
    cases oldest : firstBy (fun x y : Nat × Holding => timeThenIndex (x.2.eventTime, x.1) (y.2.eventTime, y.1))
        (s.holdings.filter (fun e => e.2.state == .lapsed)) with
    | none =>
      refine ⟨nofun, fun _ => ⟨noneFree, fun k lapsed => ?_⟩, fun _ => rfl⟩
      have listed := (lapsed_iff k).mpr lapsed
      rw [firstBy_none.mp oldest] at listed
      cases listed
    | some e =>
      obtain ⟨entry, passes⟩ :=
        of_mem_filter_holdings rising (test := fun h => h.state == .lapsed) (firstBy_mem oldest)
      have lapsed : (s.holding e.1).state = .lapsed := beq_iff_eq.mp passes
      refine ⟨fun i same => ?_, nofun, fun none => absurd lapsed (none.2 e.1)⟩
      cases same
      refine .inr ⟨noneFree, lapsed, fun k other => ?_⟩
      simpa [entry] using
        firstBy_timeThenIndex (g := fun x : Nat × Holding => (x.2.eventTime, x.1)) oldest ((lapsed_iff k).mpr other)

/-- Settles O33: the selector names a kind, or the kind is the first in the order by falling level; the reply is made of
the same words either way. -/
theorem nextNoticeChoosesAKind : Obligations.NextNoticeChoosesAKind := by
  intro s rest tag selector taking
  have refused (code : ReplyCode) (detail : Nat)
      (refuses : serveNextNotice [0x0903#16, tag, selector] (s.leaving rest) = (s.leaving rest, plain code detail)) :=
    serveKind_refused taking (kind := 0x09#8) (by decide) rfl (.inl rfl) refuses
  refine ⟨fun beyond => refused .badField 2 (serveNextNotice_beyond beyond),
    fun k named empty => refused .noNotice 0
      ((serveNextNotice_kind (f := [0x0903#16, tag, selector]) named).trans (report_none empty)),
    fun any silent => ?_, fun k any enabled pending best => ?_⟩
  · refine refused .noNotice 0 (serveNextNotice_noKind any (chosenKind_none fun k => ?_))
    rw [← Bool.not_eq_true, calls_iff]
    exact fun ⟨enabled, pending⟩ => pending (silent k enabled)
  · have chosen : (s.leaving rest).chosenKind = some k := by
      refine chosenKind_some (s := s.leaving rest) ((calls_iff k).mpr ⟨enabled, pending⟩) fun j calling => ?_
      obtain ⟨enabled, pending⟩ := (calls_iff j).mp calling
      exact best j enabled pending
    let renamed : State := { s with fifo := [0x0903#16, tag, BitVec.ofNat 16 k.position] :: rest }
    have named : field [0x0903#16, tag, BitVec.ofNat 16 k.position] 2 = k.position := by cases k <;> rfl
    have renamedTaking : Taking renamed [0x0903#16, tag, BitVec.ofNat 16 k.position] rest :=
      ⟨taking.released, taking.place, rfl⟩
    have first := serveKind_reply taking (kind := 0x09#8) (by decide) rfl (.inl rfl) (serveNextNotice_any any chosen)
    have second := serveKind_reply renamedTaking (kind := 0x09#8) (by decide) rfl (.inl rfl)
      (serveNextNotice_kind named)
    exact first.trans second.symm

/-- Settles O16: Checkout meets its checks in their order, and each clause names the first that fails. -/
theorem checkoutIsRefusedInOrder : Obligations.CheckoutIsRefusedInOrder := by
  intro s rest tag feature user host project seats wait cls taking a refused
  let frame := checkoutFrame tag feature user host project seats wait cls
  have byOwner (code : ReplyCode) (detail : Nat)
      (refuses : serveCheckout frame (s.leaving rest) = (s.leaving rest, plain code detail)) :
      exec .checkout s = refused code.byte detail :=
    serveKind_refused taking (kind := 0x01#8) rfl rfl (.inl rfl) refuses
  refine ⟨fun closed => byOwner .closed 0 (serveCheckout_closed (s := s.leaving rest) closed), fun opened => ?_⟩
  have badWord (n : Nat) (bad : checkoutBadWord frame = some n) : exec .checkout s = refused 0x33#8 n :=
    byOwner .badField n (serveCheckout_badField (s := s.leaving rest) opened bad)
  refine ⟨fun zero => badWord 2 (checkoutBadWord_some (.inl ⟨zero, rfl⟩)),
    fun one zero => badWord 3 (checkoutBadWord_some (.inr (.inl ⟨one, zero, rfl⟩))),
    fun one two zero => badWord 4 (checkoutBadWord_some (.inr (.inr (.inl ⟨one, two, zero, rfl⟩)))),
    fun one two three range => badWord 6 (checkoutBadWord_some (.inr (.inr (.inr ⟨one, two, three, range, rfl⟩)))),
    fun fields absent => ?_, fun g fields known => ?_⟩
  all_goals
    have byRefusal (code : ReplyCode) (detail : Nat)
        (refusal : (s.leaving rest).checkoutRefusal a = some (plain code detail)) :
        exec .checkout s = refused code.byte detail :=
      byOwner code detail (serveCheckout_refused (s := s.leaving rest) opened fields refusal)
  · exact byRefusal .unknownFeature 0 (checkoutRefusal_unknown (s := s.leaving rest) absent)
  · refine ⟨fun retiring => byRefusal .retired 0 (checkoutRefusal_retired (s := s.leaving rest) known retiring),
      fun active early => byRefusal .notYet 0 (checkoutRefusal_notYet (s := s.leaving rest) known active early),
      fun d active begun ending past => ?_,
      fun licensed barred => byRefusal .barred 0 (checkoutRefusal_barred (s := s.leaving rest) known licensed barred),
      fun licensed standing named unlisted => byRefusal .unknownProject 0
        (checkoutRefusal_unknownProject (s := s.leaving rest) known licensed standing named unlisted),
      fun offset licensed standing listed denied => byRefusal .deniedRule offset
        (checkoutRefusal_denied (s := s.leaving rest) known licensed standing listed denied)⟩
    refine byRefusal .expired 0
      (checkoutRefusal_expired (s := s.leaving rest) known active (Nat.not_lt.mpr begun) ?_)
    simp only [Feature.ended, Feature.endInstant, ending]
    exact decide_eq_true past

/-- Settles O24: each request hands a named holding to the case of its state. -/
theorem holdingStateDecidesTheRefusal : Obligations.HoldingStateDecidesTheRefusal := by
  intro s rest tag index gen last h inside current
  have named {st : HoldingState} (state : h.state = st) (used : st ≠ .free) :
      (s.leaving rest).handleNames index.toNat gen.toNat = some h :=
    handleNames_state (s := s.leaving rest) current state used
  refine ⟨fun taking => ?_, fun taking flag => ?_, fun taking opened days => ?_, fun taking => ?_⟩
  · have refused (code : ReplyCode) (detail : Nat) {st : HoldingState} (state : h.state = st) (used : st ≠ .free)
        (refuses : (s.leaving rest).renewHolding index.toNat h = (s.leaving rest, plain code detail)) :=
      serveKind_refused taking (kind := 0x02#8) (by decide) rfl (.inl rfl)
        ((serveRenew_named (f := [0x0204#16, tag, index, gen]) inside (named state used)).trans refuses)
    exact ⟨fun state => refused .ended 1 state nofun (renewHolding_lingering state _),
      fun state => refused .ended 2 state nofun (renewHolding_lapsed state _),
      fun state => refused .borrowed 0 state nofun (renewHolding_borrowed state _)⟩
  · have refused (code : ReplyCode) (detail : Nat) {st : HoldingState} (state : h.state = st) (used : st ≠ .free)
        (refuses : (s.leaving rest).releaseHolding index.toNat h (last.toNat == 1) =
          (s.leaving rest, plain code detail)) :=
      serveKind_refused taking (kind := 0x03#8) (by decide) rfl (.inl rfl)
        ((serveRelease_named (f := [0x0305#16, tag, index, gen, last]) inside flag (named state used)).trans refuses)
    exact ⟨fun state => refused .ended 1 state nofun (releaseHolding_lingering state _ _),
      fun state => refused .ended 2 state nofun (releaseHolding_lapsed state _ _),
      fun state => refused .borrowed 0 state nofun (releaseHolding_borrowed state _ _)⟩
  · have refused (code : ReplyCode) (detail : Nat) {st : HoldingState} (state : h.state = st) (used : st ≠ .free)
        (refuses : (s.leaving rest).borrowHolding index.toNat h last.toNat = (s.leaving rest, plain code detail)) :=
      serveKind_refused taking (kind := 0x04#8) (by decide) rfl (.inl rfl)
        ((serveBorrow_named (s := s.leaving rest) (f := [0x0405#16, tag, index, gen, last]) opened inside days (named state used)).trans refuses)
    exact ⟨fun state => refused .ended 1 state nofun (borrowHolding_lingering state _ _),
      fun state => refused .ended 2 state nofun (borrowHolding_lapsed state _ _),
      fun state => refused .borrowed 0 state nofun (borrowHolding_borrowed state _ _)⟩
  · have refused (code : ReplyCode) (detail : Nat) {st : HoldingState} (state : h.state = st) (used : st ≠ .free)
        (refuses : (s.leaving rest).returnHolding index.toNat h = (s.leaving rest, plain code detail)) :=
      serveKind_refused taking (kind := 0x05#8) (by decide) rfl (.inl rfl)
        ((serveReturn_named (f := [0x0504#16, tag, index, gen]) inside (named state used)).trans refuses)
    exact ⟨fun state => refused .notBorrowed 0 state nofun (returnHolding_live state _),
      fun state => refused .notBorrowed 0 state nofun (returnHolding_lingering state _),
      fun state => refused .ended 2 state nofun (returnHolding_lapsed state _)⟩

/-- Settles O23: each request by its checks in their order. -/
theorem handlesAndTicketsAreChecked : Obligations.HandlesAndTicketsAreChecked := by
  intro s rest tag index gen last i outside stale
  refine ⟨fun taking => ?_, fun taking => ?_, fun taking => ?_, fun taking => ?_, fun taking => ?_⟩
  · have refused (code : ReplyCode) (detail : Nat) :=
      serveKind_refused taking (kind := 0x02#8) (by decide) rfl (.inl rfl) (owner := serveRenew) (code := code)
        (detail := detail)
    exact ⟨fun beyond => refused .badField 2 (serveRenew_outside beyond),
      fun ⟨inside, old⟩ => refused .noHolding 0 (serveRenew_stale inside (handleNames_stale old))⟩
  · have refused (code : ReplyCode) (detail : Nat) :=
      serveKind_refused taking (kind := 0x05#8) (by decide) rfl (.inl rfl) (owner := serveReturn) (code := code)
        (detail := detail)
    exact ⟨fun beyond => refused .badField 2 (serveReturn_outside beyond),
      fun ⟨inside, old⟩ => refused .noHolding 0 (serveReturn_stale inside (handleNames_stale old))⟩
  · have refused (code : ReplyCode) (detail : Nat) :=
      serveKind_refused taking (kind := 0x03#8) (by decide) rfl (.inl rfl) (owner := serveRelease) (code := code)
        (detail := detail)
    exact ⟨fun beyond => refused .badField 2 (serveRelease_outside beyond),
      fun inside flag => refused .badField 4 (serveRelease_badFlag inside flag),
      fun ⟨inside, old⟩ flag => refused .noHolding 0 (serveRelease_stale inside flag (handleNames_stale old))⟩
  · have refused (code : ReplyCode) (detail : Nat) :=
      serveKind_refused taking (kind := 0x04#8) (by decide) rfl (.inl rfl) (owner := serveBorrow) (code := code)
        (detail := detail)
    exact ⟨fun closed => refused .closed 0 (serveBorrow_closed (s := s.leaving rest) closed),
      fun opened beyond => refused .badField 2 (serveBorrow_outside (s := s.leaving rest) opened beyond),
      fun opened inside days => refused .badField 4 (serveBorrow_noDays (s := s.leaving rest) opened inside days),
      fun opened ⟨inside, old⟩ days =>
        refused .noHolding 0 (serveBorrow_stale (s := s.leaving rest) opened inside days (handleNames_stale old))⟩
  · have refused (code : ReplyCode) (detail : Nat) :=
      serveKind_refused taking (kind := 0x06#8) (by decide) rfl (.inl rfl) (owner := serveCancelWait) (code := code)
        (detail := detail)
    exact ⟨fun beyond => refused .badField 2 (serveCancelWait_outside beyond),
      fun inside old => refused .noTicket 0 (serveCancelWait_stale inside (ticketNames_stale old))⟩

end Sys2Proof.Claims
end

section
/-! SUPPORT. The lowest failing word, the directories, the notice levels and the restarts of the divider: the proofs of
O35, O37, O42 and O47. -/

namespace Sys2Proof.Machine

open Sys2Proof.Claims

variable {s : State} {f : Frame}

/-! ### The lowest-numbered failing word (R171) -/

/-- Of checks in rising order of their words, the lowest that fails is named. -/
theorem firstBadWord_some {l : List (Nat × Bool)} (rising : l.Pairwise (fun a b => a.1 < b.1)) {n : Nat}
    (bad : (n, true) ∈ l) (first : ∀ m, m < n → (m, true) ∉ l) : firstBadWord l = some n := by
  induction l with
  | nil => cases bad
  | cons e l ih =>
    obtain ⟨above, below⟩ := List.pairwise_cons.mp rising
    obtain ⟨m, fails⟩ := e
    cases fails with
    | true =>
      rcases List.mem_cons.mp bad with same | later
      · cases same
        rfl
      · exact absurd List.mem_cons_self (first m (above _ later))
    | false =>
      have rest : firstBadWord ((m, false) :: l) = firstBadWord l := rfl
      rw [rest]
      refine ih below ((List.mem_cons.mp bad).resolve_left nofun) fun k lower listed => ?_
      exact first k lower (List.mem_cons_of_mem _ listed)

theorem firstBadWord_none {l : List (Nat × Bool)} (good : ∀ n, (n, true) ∉ l) : firstBadWord l = none := by
  rw [firstBadWord, Option.map_eq_none_iff, List.find?_eq_none]
  rintro ⟨n, fails⟩ listed
  cases fails with
  | true => exact absurd listed (good n)
  | false => nofun

theorem firstBadWord_triple (l m n : Nat) (a b c : Bool) :
    firstBadWord [(l, a), (m, b), (n, c)] = if a then some l else if b then some m else if c then some n else none := by
  cases a <;> cases b <;> cases c <;> rfl

/-! ### Define User, Define Host and Set Notice Levels (R23, R25, R146) -/

/-- What Define User and Define Host answer: whether the entry was there. -/
theorem known_detail {α : Type} (entry : Option α) :
    (if entry.isSome = true then 1 else 0) = if entry = none then 0 else 1 := by
  cases entry <;> rfl

theorem serveDefineUser_badField {n : Nat}
    (bad : firstBadWord [(2, field f 2 == 0), (4, decide (2 < field f 4)), (5, decide (3 < field f 5))] = some n) :
    serveDefineUser f s = (s, badField n) := by
  rw [serveDefineUser, bad]

section DefineUser

variable (pass : firstBadWord [(2, field f 2 == 0), (4, decide (2 < field f 4)), (5, decide (3 < field f 5))] = none)

include pass

theorem serveDefineUser_removes (absent : field f 4 = 0) :
    serveDefineUser f s =
      ({ s with users := tableErase s.users (field f 2) }, okay (if s.user (field f 2) = none then 0 else 1)) := by
  rw [serveDefineUser, pass]
  simp only [absent, if_true, known_detail]

theorem serveDefineUser_full (present : field f 4 ≠ 0) (unknown : s.user (field f 2) = none)
    (full : 4096 ≤ s.users.length) : serveDefineUser f s = (s, plain .tableFull 0) := by
  simp [serveDefineUser, pass, present, unknown, full]

theorem serveDefineUser_enters (present : field f 4 ≠ 0) (room : s.user (field f 2) ≠ none ∨ s.users.length < 4096) :
    serveDefineUser f s =
      ({ s with
          users := tableInsert s.users (field f 2)
            { groups := f.getD 3 0#16, standing := if field f 4 = 1 then .enabled else .barred, highest := field f 5 } },
        okay (if s.user (field f 2) = none then 0 else 1)) := by
  have free : (!(s.user (field f 2)).isSome && decide (Config.userEntries ≤ s.users.length)) = false := by
    rcases room with known | room
    · simp [Option.isSome_iff_ne_none.mpr known]
    · simp [Nat.not_le.mpr room]
  rw [serveDefineUser, pass]
  simp only [present, if_false, free, Bool.false_eq_true, known_detail]

end DefineUser

theorem serveDefineHost_badField {n : Nat}
    (bad : firstBadWord [(2, field f 2 == 0), (3, decide (15 < field f 3)), (4, decide (1 < field f 4))] = some n) :
    serveDefineHost f s = (s, badField n) := by
  rw [serveDefineHost, bad]

section DefineHost

variable (pass : firstBadWord [(2, field f 2 == 0), (3, decide (15 < field f 3)), (4, decide (1 < field f 4))] = none)

include pass

theorem serveDefineHost_removes (absent : field f 4 = 0) :
    serveDefineHost f s =
      ({ s with hosts := tableErase s.hosts (field f 2) },
        okay (if tableFind s.hosts (field f 2) = none then 0 else 1)) := by
  rw [serveDefineHost, pass]
  simp only [absent, if_true, known_detail]

theorem serveDefineHost_full (present : field f 4 ≠ 0) (unknown : tableFind s.hosts (field f 2) = none)
    (full : 1024 ≤ s.hosts.length) : serveDefineHost f s = (s, plain .tableFull 0) := by
  simp [serveDefineHost, pass, present, unknown, full]

theorem serveDefineHost_enters (present : field f 4 ≠ 0)
    (room : tableFind s.hosts (field f 2) ≠ none ∨ s.hosts.length < 1024) :
    serveDefineHost f s =
      ({ s with hosts := tableInsert s.hosts (field f 2) (field f 3) },
        okay (if tableFind s.hosts (field f 2) = none then 0 else 1)) := by
  have free : (!(tableFind s.hosts (field f 2)).isSome && decide (Config.hostEntries ≤ s.hosts.length)) = false := by
    rcases room with known | room
    · simp [Option.isSome_iff_ne_none.mpr known]
    · simp [Nat.not_le.mpr room]
  rw [serveDefineHost, pass]
  simp only [present, if_false, free, Bool.false_eq_true, known_detail]

end DefineHost

theorem settingBad_iff (w : Word) : settingBad w = true ↔ 3 < w.toNat / 256 ∨ 1 < w.toNat % 256 := by
  simp [settingBad, hiByte_toNat, loByte_toNat]

theorem settingOf_eq (w : Word) : settingOf w = ⟨w.toNat / 256, decide (w.toNat % 256 = 1)⟩ := by
  have low : (loByte w == 1#8) = decide (w.toNat % 256 = 1) := by
    rw [beq_eq_decide, ← loByte_toNat]
    exact decide_eq_decide.mpr ⟨fun same => congrArg BitVec.toNat same, fun same => BitVec.eq_of_toNat_eq same⟩
  rw [settingOf, hiByte_toNat, low]

/-- A word in range is the word of the setting that it carries. -/
theorem settingWord_settingOf {w : Word} (good : ¬(3 < w.toNat / 256 ∨ 1 < w.toNat % 256)) :
    settingWord (settingOf w) = w := by
  have low : (if (loByte w == 1#8) = true then 1#8 else 0#8) = loByte w := by
    apply BitVec.eq_of_toNat_eq
    have small : (loByte w).toNat ≤ 1 := by rw [loByte_toNat]; omega
    by_cases one : loByte w = 1#8
    · simp [one]
    · have other : (loByte w).toNat ≠ 1 := fun same => one (BitVec.eq_of_toNat_eq same)
      simp [one]
      omega
  have high : BitVec.ofNat 8 (hiByte w).toNat = hiByte w := BitVec.ofNat_toNat 8 _ ▸ BitVec.setWidth_eq _
  rw [settingWord, settingOf]
  simp only [low, high, joinBytes_hi_lo]

theorem serveSetNoticeLevels_badField {n : Nat}
    (bad : firstBadWord [(2, settingBad (f.getD 2 0#16)), (3, settingBad (f.getD 3 0#16)),
      (4, settingBad (f.getD 4 0#16)), (5, settingBad (f.getD 5 0#16)), (6, settingBad (f.getD 6 0#16))] = some n) :
    serveSetNoticeLevels f s = (s, badField n) := by
  simp only [serveSetNoticeLevels, bad]

theorem serveSetNoticeLevels_sets
    (pass : firstBadWord [(2, settingBad (f.getD 2 0#16)), (3, settingBad (f.getD 3 0#16)),
      (4, settingBad (f.getD 4 0#16)), (5, settingBad (f.getD 5 0#16)), (6, settingBad (f.getD 6 0#16))] = none) :
    serveSetNoticeLevels f s =
      ({ s with
          notices :=
            { grant := settingOf (f.getD 2 0#16), waitEnd := settingOf (f.getD 3 0#16),
              lapse := settingOf (f.getD 4 0#16), poolOver := settingOf (f.getD 5 0#16),
              drained := settingOf (f.getD 6 0#16) } },
        { code := .ok, detail := 0,
          body := [settingWord (settingOf (f.getD 2 0#16)), settingWord (settingOf (f.getD 3 0#16)),
            settingWord (settingOf (f.getD 4 0#16)), settingWord (settingOf (f.getD 5 0#16)),
            settingWord (settingOf (f.getD 6 0#16))] }) := by
  simp only [serveSetNoticeLevels, pass]
  rfl

/-! ### Set Time without a step forward (R138, R140) -/

theorem counting_true (released : s.resetLow = false) (counts : s.timeState = .set) : s.counting = true := by
  simp [State.counting, released, counts]

theorem exec_siteTimeAdvance (counts : s.counting = true) : exec .siteTimeAdvance s = .next s.advance :=
  if_neg (by simp [counts])

theorem exec_refclkPeriod_raises (counts : s.counting = true) (below : s.divider + 1 < 32768) :
    exec .refclkPeriod s = .next { s with divider := s.divider + 1 } :=
  (if_neg (by simp [counts])).trans (if_pos below)

theorem exec_refclkPeriod_turns (counts : s.counting = true) (last : 32768 ≤ s.divider + 1) :
    exec .refclkPeriod s = .next s.advance :=
  (if_neg (by simp [counts])).trans (if_neg (Nat.not_lt.mpr last))

theorem afterPeriods_add {m : Nat} {t : State} (first : afterPeriods m s = some t) (n : Nat) :
    afterPeriods (m + n) s = afterPeriods n t := by
  induction m generalizing s with
  | zero =>
    cases first
    rw [Nat.zero_add]
  | succ m ih =>
    rw [Nat.succ_add]
    rw [afterPeriods] at first ⊢
    cases done : exec .refclkPeriod s with
    | next u =>
      rw [done] at first
      exact ih first
    | fault r => rw [done] at first; cases first
    | refused r => rw [done] at first; cases first

/-- Fewer periods than remain of the second raise the divider, and no more. -/
theorem afterPeriods_raise (counts : s.counting = true) {n : Nat} (below : s.divider + n < 32768) :
    afterPeriods n s = some { s with divider := s.divider + n } := by
  induction n with
  | zero => rfl
  | succ n ih =>
    rw [afterPeriods_add (ih (by omega)) 1, afterPeriods]
    have raised := exec_refclkPeriod_raises (s := { s with divider := s.divider + n }) counts (by simp only; omega)
    rw [raised]
    rfl

/-- The periods that remain of the second bring about one advance. -/
theorem afterPeriods_turn (counts : s.counting = true) (bound : s.divider ≤ 32767) :
    afterPeriods (32768 - s.divider) s = some s.advance := by
  have split : 32768 - s.divider = (32767 - s.divider) + 1 := by omega
  rw [split, afterPeriods_add (afterPeriods_raise counts (by omega)) 1, afterPeriods]
  have turned := exec_refclkPeriod_turns (s := { s with divider := s.divider + (32767 - s.divider) }) counts
    (by simp only; omega)
  rw [turned]
  rfl

theorem serveSetTime_same (counts : s.timeState = .set) (same : field32 f 2 = s.siteTime) :
    serveSetTime f s = ({ s with divider := 0 }, timeAnswer .ok 2 s) := by
  simp [serveSetTime, counts, same]

section StepsBack

variable (counts : s.timeState = .set) (behind : field32 f 2 < s.siteTime)

include counts behind

theorem serveSetTime_held (held : s.holdingsFree = false) : serveSetTime f s = (s, timeAnswer .timeBackward 1 s) := by
  simp [serveSetTime, counts, Nat.lt_asymm behind, Nat.ne_of_lt behind, held]

theorem serveSetTime_waited (free : s.holdingsFree = true) (waited : s.waitersFree = false) :
    serveSetTime f s = (s, timeAnswer .timeBackward 2 s) := by
  simp [serveSetTime, counts, Nat.lt_asymm behind, Nat.ne_of_lt behind, free, waited]

theorem serveSetTime_back (free : s.holdingsFree = true) (unwaited : s.waitersFree = true) :
    serveSetTime f s = (s.stepBack (field32 f 2), timeAnswer .ok 3 (s.stepBack (field32 f 2))) := by
  simp [serveSetTime, counts, Nat.lt_asymm behind, Nat.ne_of_lt behind, free, unwaited]

end StepsBack

theorem holdingsFree_iff (rising : TableRising s.holdings) :
    s.holdingsFree = true ↔ ¬∃ i, (s.holding i).state ≠ .free := by
  have used := any_table_iff (test := fun h : Holding => !(h.state == .free)) rising Holding.initial rfl
  rw [State.holdingsFree, ← Bool.not_eq_false, List.all_eq_not_any_not, Bool.not_eq_false']
  simpa [State.holding] using not_congr used

theorem waitersFree_iff (rising : TableRising s.waiters) :
    s.waitersFree = true ↔ ¬∃ j, (s.waiter j).state ≠ .free := by
  have used := any_table_iff (test := fun w : Waiter => !(w.state == .free)) rising Waiter.initial rfl
  rw [State.waitersFree, ← Bool.not_eq_false, List.all_eq_not_any_not, Bool.not_eq_false']
  simpa [State.waiter] using not_congr used

theorem lodgedAfter_eq (v : Nat) (g : Feature) :
    g.lodgedAfter v =
      if g.endDay.any (fun d => decide (v < (d + 1) * 86400)) then { g with endLodged := true } else g := by
  cases ending : g.endDay with
  | none => simp [Feature.lodgedAfter, Feature.endInstant, ending]
  | some d =>
    have instant : g.endInstant = some ((d + 1) * 86400) := congrArg (Option.map _) ending
    rw [Feature.lodgedAfter, instant, Option.any_some]
    generalize (d + 1) * 86400 = e
    simp [ending]

/-! ### Define Feature's fields (R14, R171) -/

theorem sharing_isNone (n : Nat) : (Sharing.ofCode n).isNone = true ↔ 2 < n := by
  rcases n with _ | _ | _ | n <;> simp [Sharing.ofCode]

/-- The checks of Define Feature's fields, word by word, as they are said of numbers. -/
theorem mem_featureChecks (code pool weight sharing start ending lease linger borrow flag chain m : Nat) :
    (m, true) ∈
      [(2, code == 0), (3, decide (Config.pools ≤ pool)), (4, weight == 0 || decide (255 < weight)),
        (5, (Sharing.ofCode sharing).isNone), (6, decide (49709 < start)),
        (7, (decide (49709 < ending) && ending != 65535) || (decide (ending < start) && ending != 65535)),
        (8, decide (lease < 60) || decide (86400 < lease)), (10, decide (3600 < linger)), (11, decide (30 < borrow)),
        (12, decide (1 < flag)), (13, flag == 1 && decide (Config.termSlots ≤ chain))] ↔
    (m = 2 ∧ code = 0) ∨ (m = 3 ∧ 63 < pool) ∨ (m = 4 ∧ (weight = 0 ∨ 255 < weight)) ∨ (m = 5 ∧ 2 < sharing)
      ∨ (m = 6 ∧ 49709 < start) ∨ (m = 7 ∧ ending ≠ 65535 ∧ (49710 ≤ ending ∨ ending < start))
      ∨ (m = 8 ∧ (lease < 60 ∨ 86400 < lease)) ∨ (m = 10 ∧ 3600 < linger) ∨ (m = 11 ∧ 30 < borrow)
      ∨ (m = 12 ∧ 1 < flag) ∨ (m = 13 ∧ flag = 1 ∧ 2047 < chain) := by
  have days : ((decide (49709 < ending) && ending != 65535) || (decide (ending < start) && ending != 65535)) = true ↔
      ending ≠ 65535 ∧ (49710 ≤ ending ∨ ending < start) := by
    simp only [Bool.or_eq_true, Bool.and_eq_true, decide_eq_true_eq, bne_iff_ne]
    omega
  have pools : decide (Config.pools ≤ pool) = true ↔ 63 < pool := decide_eq_true_iff
  have slots : decide (Config.termSlots ≤ chain) = true ↔ 2047 < chain := decide_eq_true_iff
  simp only [List.mem_cons, Prod.mk.injEq, List.not_mem_nil, or_false, eq_comm (a := true), sharing_isNone, days, pools,
    slots, Bool.or_eq_true, Bool.and_eq_true, beq_iff_eq, decide_eq_true_eq]

/-- The field check of Define Feature names the lowest word that fails (R14, R171). -/
theorem featureBadWord_fails (x : FeatureWords) (tag : Word) {n : Nat} (fails : x.fails n)
    (first : ∀ m, m < n → ¬x.fails m) : featureBadWord (x.frame tag) = some n := by
  have checks (m : Nat) := mem_featureChecks x.code.toNat x.pool.toNat x.weight.toNat x.sharing.toNat x.startDay.toNat
    x.endDay.toNat (value32 x.leaseHi x.leaseLo) x.linger.toNat x.borrowMax.toNat x.chainFlag.toNat x.chain.toNat m
  refine firstBadWord_some (n := n) ?_ ((checks n).mpr fails) fun m below bad => first m below ((checks m).mp bad)
  simp

end Sys2Proof.Machine

namespace Sys2Proof.Claims

open Sys2Proof.Machine

/-- Settles O42: the model's checks, word by word, are those of the statement, in rising order of their words. -/
theorem defineFeatureNamesTheLowestFailingWord : Obligations.DefineFeatureNamesTheLowestFailingWord := by
  intro s rest tag x n taking admen fails first
  refine serveKind_refused taking (kind := 0x28#8) (by decide) rfl (.inr ⟨rfl, admen⟩) (owner := serveDefineFeature)
    (code := .badField) ?_
  have bad := featureBadWord_fails x tag fails first
  rw [FeatureWords.frame] at bad
  rw [serveDefineFeature, bad]
  rfl

/-- Settles O35: the divider restarts, the periods of a full second are those that remain of it, and they bring about
one advance. -/
theorem setTimeToTheSameSecondRestartsTheDivider : Obligations.SetTimeToTheSameSecondRestartsTheDivider := by
  intro s rest tag hi lo taking admen counts same
  let t : State := { answered s rest (reply 0x20#8 tag 0x00#8 2 (two s.siteTime)) with divider := 0 }
  have counting : t.counting = true := counting_true (s := t) taking.released counts
  have served := serveKind_reply taking (kind := 0x20#8) (by decide) rfl (.inr ⟨rfl, admen⟩)
    (serveSetTime_same (s := s.leaving rest) (f := [0x2004#16, tag, hi, lo]) counts same)
  refine ⟨t, served, rfl, fun n below => ?_, t.advance, exec_siteTimeAdvance counting, afterPeriods_turn counting ?_⟩
  · have raised := afterPeriods_raise (n := n) counting (by simpa [t] using below)
    rw [raised]
    simp [t]
  · exact Nat.zero_le _

/-- Settles O37: a backward step is taken where both tables hold FREE entries alone, the holdings tested first. -/
theorem setTimeStepsBackOnlyWhenAllIsFree : Obligations.SetTimeStepsBackOnlyWhenAllIsFree := by
  intro s rest tag hi lo taking tables v held waited admen counts behind
  have byOwner {t : State} {a : Answer} (serves : serveSetTime [0x2004#16, tag, hi, lo] (s.leaving rest) = (t, a)) :=
    serveKind_reply taking (kind := 0x20#8) (by decide) rfl (.inr ⟨rfl, admen⟩) serves
  have holdings := holdingsFree_iff (s := s) tables.holdings_canonical.1
  have waiters := waitersFree_iff (s := s) tables.waiters_canonical.1
  have step := lodgedAfter_eq v
  refine ⟨fun used => ?_, fun free used => ?_, fun free unwaited => ?_⟩
  · have held : (s.leaving rest).holdingsFree = false := Bool.eq_false_iff.mpr fun free => holdings.mp free used
    exact byOwner (serveSetTime_held (s := s.leaving rest) counts behind held)
  · have waited : (s.leaving rest).waitersFree = false := Bool.eq_false_iff.mpr fun free => waiters.mp free used
    exact byOwner (serveSetTime_waited (s := s.leaving rest) counts behind (holdings.mpr free) waited)
  · refine (byOwner (serveSetTime_back (s := s.leaving rest) counts behind (holdings.mpr free)
      (waiters.mpr unwaited))).trans ?_
    have features : (s.features.map (fun e => (e.1, e.2.lodgedAfter v))) = _ :=
      congrArg (fun g : Feature → Feature => s.features.map (fun e => (e.1, g e.2))) (funext step)
    exact congrArg (fun l : Table Feature => Host.Outcome.next (φ := Fault) (ρ := Refusal)
      { answered s rest (reply 0x20#8 tag 0x00#8 3 (two v)) with
          siteTime := v
          divider := 0
          features := l
          reached := s.reached.filter (fun d => !(d.kind == DeadlineKind.featureEnd && decide (v < d.second))) }) features

/-- Settles O47: each request by its field checks, and then by whether its entry is there and has room; the words of the
notice levels are those of the settings that they carry. -/
theorem directoriesAndLevelsAreEdited : Obligations.DirectoriesAndLevelsAreEdited := by
  refine ⟨?_, ?_, ?_⟩
  · intro s rest tag user groups standing highest taking admen u passes entry known
    let frame : Frame := [0x2C06#16, tag, user, groups, standing, highest]
    have byOwner {t : State} {a : Answer} (serves : serveDefineUser frame (s.leaving rest) = (t, a)) :=
      serveKind_reply taking (kind := 0x2C#8) (by decide) rfl (.inr ⟨rfl, admen⟩) serves
    have checks : firstBadWord [(2, u == 0), (4, decide (2 < standing.toNat)), (5, decide (3 < highest.toNat))] = _ :=
      firstBadWord_triple ..
    have pass (good : passes) : firstBadWord
        [(2, u == 0), (4, decide (2 < standing.toNat)), (5, decide (3 < highest.toNat))] = none := by
      obtain ⟨code, range, top⟩ := good
      rw [checks]
      simp [code, Nat.not_lt.mpr range, Nat.not_lt.mpr top]
    refine ⟨fun zero => byOwner (serveDefineUser_badField (n := 2) (checks.trans ?_)),
      fun code range => byOwner (serveDefineUser_badField (n := 4) (checks.trans ?_)),
      fun code range top => byOwner (serveDefineUser_badField (n := 5) (checks.trans ?_)),
      fun good absent => byOwner (serveDefineUser_removes (s := s.leaving rest) (pass good) absent),
      fun good present unknown full =>
        byOwner (serveDefineUser_full (s := s.leaving rest) (pass good) present unknown full),
      fun good present room => byOwner (serveDefineUser_enters (s := s.leaving rest) (pass good) present room)⟩
    · simp [zero]
    · simp [code, range]
    · simp [code, Nat.not_lt.mpr range, top]
  · intro s rest tag host cls flag taking admen h passes known
    let frame : Frame := [0x2D05#16, tag, host, cls, flag]
    have byOwner {t : State} {a : Answer} (serves : serveDefineHost frame (s.leaving rest) = (t, a)) :=
      serveKind_reply taking (kind := 0x2D#8) (by decide) rfl (.inr ⟨rfl, admen⟩) serves
    have checks : firstBadWord [(2, h == 0), (3, decide (15 < cls.toNat)), (4, decide (1 < flag.toNat))] = _ :=
      firstBadWord_triple ..
    have pass (good : passes) : firstBadWord
        [(2, h == 0), (3, decide (15 < cls.toNat)), (4, decide (1 < flag.toNat))] = none := by
      obtain ⟨code, range, top⟩ := good
      rw [checks]
      simp [code, Nat.not_lt.mpr range, Nat.not_lt.mpr top]
    have present (one : flag.toNat = 1) : field frame 4 ≠ 0 := fun zero => nomatch one.symm.trans zero
    refine ⟨fun zero => byOwner (serveDefineHost_badField (n := 2) (checks.trans ?_)),
      fun code range => byOwner (serveDefineHost_badField (n := 3) (checks.trans ?_)),
      fun code range top => byOwner (serveDefineHost_badField (n := 4) (checks.trans ?_)),
      fun good absent => byOwner (serveDefineHost_removes (s := s.leaving rest) (pass good) absent),
      fun good one unknown full =>
        byOwner (serveDefineHost_full (s := s.leaving rest) (pass good) (present one) unknown full),
      fun good one room => byOwner (serveDefineHost_enters (s := s.leaving rest) (pass good) (present one) room)⟩
    · simp [zero]
    · simp [code, range]
    · simp [code, Nat.not_lt.mpr range, top]
  · intro s rest tag a b c d e taking admen bad setting
    let frame : Frame := [0x2E07#16, tag, a, b, c, d, e]
    have byOwner {t : State} {x : Answer} (serves : serveSetNoticeLevels frame (s.leaving rest) = (t, x)) :=
      serveKind_reply taking (kind := 0x2E#8) (by decide) rfl (.inr ⟨rfl, admen⟩) serves
    have out {w : Word} (range : bad w) : settingBad w = true := (settingBad_iff w).mpr range
    have fine {w : Word} (range : ¬bad w) : settingBad w = false := Bool.eq_false_iff.mpr (mt (settingBad_iff w).mp range)
    refine ⟨fun first => byOwner (serveSetNoticeLevels_badField (n := 2) ?_),
      fun one second => byOwner (serveSetNoticeLevels_badField (n := 3) ?_),
      fun one two third => byOwner (serveSetNoticeLevels_badField (n := 4) ?_),
      fun one two three fourth => byOwner (serveSetNoticeLevels_badField (n := 5) ?_),
      fun one two three four fifth => byOwner (serveSetNoticeLevels_badField (n := 6) ?_),
      fun one two three four five => ?_⟩
    · simp [frame, firstBadWord, out first]
    · simp [frame, firstBadWord, fine one, out second]
    · simp [frame, firstBadWord, fine one, fine two, out third]
    · simp [frame, firstBadWord, fine one, fine two, fine three, out fourth]
    · simp [frame, firstBadWord, fine one, fine two, fine three, fine four, out fifth]
    · refine (byOwner (serveSetNoticeLevels_sets (f := frame) ?_)).trans ?_
      · simp [frame, firstBadWord, fine one, fine two, fine three, fine four, fine five]
      · have same {w : Word} (range : ¬bad w) : settingWord (settingOf w) = w := settingWord_settingOf range
        simp only [frame, List.getD_cons_succ, List.getD_cons_zero, same one, same two, same three, same four, same five]
        simp only [settingOf_eq]
        rfl

end Sys2Proof.Claims
end

section
/-! SUPPORT. The tables keep their canonical form and their capacities, the drained list its order and the link
its bounds: the proof of O52. -/

namespace Sys2Proof.Machine

open Sys2Proof.Claims

variable {c : Instr} {s t : State}

/-! ### Tables in their form: the shared operations -/

/-- Deadlines, marks and counters are no part of the tables. -/
theorem TablesOk.of_ledger (ok : TablesOk s) (same : t.ledger = s.ledger) : TablesOk t := by
  have fields := same
  simp only [State.ledger, State.mk.injEq] at fields
  obtain ⟨-, -, -, -, -, -, -, -, -, features, pools, projects, allotments, users, hosts, -, terms, -, holdings,
    waiters, -⟩ := fields
  exact ⟨features ▸ ok.features_rising, pools ▸ ok.pools_canonical, projects ▸ ok.projects_distinct,
    allotments ▸ ok.allotments_distinct, users ▸ ok.users_rising, hosts ▸ ok.hosts_rising,
    terms ▸ ok.terms_canonical, holdings ▸ ok.holdings_canonical, waiters ▸ ok.waiters_canonical⟩

namespace TablesOk

variable (ok : TablesOk s)

include ok

theorem withDeadlines (reached atOnce : List Deadline) (n : Nat) :
    TablesOk { s with reached := reached, atOnce := atOnce, choices := n } :=
  ⟨ok.1, ok.2, ok.3, ok.4, ok.5, ok.6, ok.7, ok.8, ok.9⟩

theorem placeHolding (i : Nat) (h : Holding) : TablesOk (s.placeHolding i h) := by
  rw [placeHolding_eq]
  exact ⟨ok.1, ok.2, ok.3, ok.4, ok.5, ok.6, ok.7, tablePut_canonical ok.8 i h, ok.9⟩

theorem setHolding (i : Nat) (h : Holding) : TablesOk (s.setHolding i h) :=
  ⟨ok.1, ok.2, ok.3, ok.4, ok.5, ok.6, ok.7, tablePut_canonical ok.8 i h, ok.9⟩

theorem placeWaiter (j : Nat) (w : Waiter) : TablesOk (s.placeWaiter j w) := by
  rw [placeWaiter_eq]
  exact ⟨ok.1, ok.2, ok.3, ok.4, ok.5, ok.6, ok.7, ok.8, tablePut_canonical ok.9 j w⟩

theorem setPool (p : Nat) (q : Pool) : TablesOk (s.setPool p q) :=
  ⟨ok.1, tablePut_canonical ok.2 p q, ok.3, ok.4, ok.5, ok.6, ok.7, ok.8, ok.9⟩

theorem setFeature (code : Nat) (f : Feature) : TablesOk (s.setFeature code f) :=
  ⟨tableInsert_rising ok.1 code f, ok.2, ok.3, ok.4, ok.5, ok.6, ok.7, ok.8, ok.9⟩

theorem placeFeature (code : Nat) (f : Feature) : TablesOk (s.placeFeature code f) := by
  rw [placeFeature_eq]
  exact ⟨tableInsert_rising ok.1 code _, ok.2, ok.3, ok.4, ok.5, ok.6, ok.7, ok.8, ok.9⟩

theorem drain (code evt : Nat) : TablesOk (s.drain code evt) :=
  ⟨tableErase_rising ok.1 code, ok.2, ok.3, ok.4, ok.5, ok.6, ok.7, ok.8, ok.9⟩

theorem changeAllotment (project pool : Nat) {g : Allotment → Allotment}
    (keeps : ∀ a, (g a).project = a.project ∧ (g a).pool = a.pool) : TablesOk (s.changeAllotment project pool g) := by
  refine ⟨ok.1, ok.2, ok.3, ?_, ok.5, ok.6, ok.7, ok.8, ok.9⟩
  have keys : (s.changeAllotment project pool g).allotments.map (fun a => (a.project, a.pool)) =
      s.allotments.map (fun a => (a.project, a.pool)) := by
    rw [State.changeAllotment, List.map_map]
    refine List.map_congr_left fun a _ => ?_
    simp only [Function.comp_apply]
    split
    · rw [(keeps a).1, (keeps a).2]
    · rfl
  exact keys ▸ ok.4

theorem postUsed (project pool : Nat) (g : Nat → Nat) : TablesOk (s.postUsed project pool g) :=
  ok.changeAllotment project pool fun _ => ⟨rfl, rfl⟩

theorem charge (pool project cost evt : Nat) : TablesOk (s.charge pool project cost evt) :=
  ((ok.setPool _ _).postUsed _ _ _).setPool _ _

theorem refund (h : Holding) (evt : Nat) : TablesOk (s.refund h evt) :=
  ((ok.setPool _ _).postUsed _ _ _).setPool _ _

theorem chargeJoin (h : Holding) (cost evt : Nat) : TablesOk (s.chargeJoin h cost evt) := by
  unfold State.chargeJoin
  split
  · exact ok
  · exact ok.charge ..

theorem drainReport (code evt : Nat) : TablesOk (s.drainReport code evt) := by
  rcases drainReport_cases s code evt with same | ⟨-, -, drained⟩
  · rw [same]
    exact ok
  · rw [drained]
    exact ok.drain code evt

theorem uncount (i : Nat) (x : Holding) (evt : Nat) : TablesOk (s.uncount i x evt) :=
  ((ok.placeHolding i x).refund _ evt).drainReport _ evt

theorem dequeue (pool j : Nat) (w : Waiter) : TablesOk (s.dequeue pool j w) := (ok.setPool _ _).placeWaiter j w

theorem endFeatureWaiters (code : Nat) (reason : WaiterEnd) (evt : Nat) :
    TablesOk (s.endFeatureWaiters code reason evt) :=
  endFeatureWaiters_induct (P := TablesOk) (fun _ _ _ kept => kept.dequeue ..) ok

theorem reclamped (code : Nat) (new : Feature) : TablesOk (s.reclamped code new) := by
  unfold State.reclamped
  split
  · exact reclamp_induct (P := TablesOk) (fun _ _ _ _ _ _ _ kept => kept.placeHolding ..)
      (fun _ _ _ _ _ _ _ kept => kept.placeWaiter ..) ok
  · exact ok

theorem recomputedIf (pool : Nat) (recompute : Bool) : TablesOk (s.recomputedIf pool recompute) := by
  unfold State.recomputedIf
  split
  · exact ok.setPool _ _
  · exact ok

theorem grantPath (f : Feature) (a : Asking) (path : Path) (cost i evt : Nat) :
    TablesOk (s.grantPath f a path cost i evt) := by
  cases path with
  | fresh => exact (ok.placeHolding i _).charge ..
  | merge k => exact (ok.placeHolding i _).chargeJoin ..
  | reattach k => exact ((ok.placeHolding i _).setPool _ _).chargeJoin ..

theorem grantWaiter (j : Nat) (f : Feature) (path : Path) (cost i evt : Nat) :
    TablesOk (s.grantWaiter j f path cost i evt) :=
  (ok.grantPath ..).dequeue ..

end TablesOk

theorem Handled.tables {d : Deadline} (handled : Handled d s t) (ok : TablesOk s) : TablesOk t := by
  cases handled with
  | nothing _ => exact ok
  | holding _ _ => exact ok.uncount ..
  | waiter _ _ => exact ok.dequeue ..
  | feature _ _ => exact (ok.setFeature _ _).endFeatureWaiters ..

theorem Follows.tables (follows : Follows s t) (ok : TablesOk s) : TablesOk t := by
  induction follows with
  | done s => exact ok
  | marks mark _ ih => exact ih (ok.of_ledger rfl)
  | grants evt _ _ ih => exact ih (ok.grantWaiter ..)
  | handles n _ handled _ ih => exact ih (handled.tables (ok.withDeadlines _ _ n))

/-! ### Tables in their form: Clear Holdings and the edits -/

theorem emptiedOut_pools_canonical (ok : TablesOk s) : TableCanonical Pool.initial s.emptiedOut.pools := by
  have emptied : TableCanonical Pool.initial s.emptied.pools := tableMap_canonical ok.pools_canonical.1 _
  unfold State.emptiedOut State.recomputeAll
  suffices fold : ∀ (l : List Nat) (u : State), TableCanonical Pool.initial u.pools →
      TableCanonical Pool.initial (l.foldl (fun acc p => acc.recomputeOver p s.siteTime) u).pools from fold _ _ emptied
  intro l
  induction l with
  | nil => exact fun u canonical => canonical
  | cons p l ih => exact fun u canonical => ih _ (tablePut_canonical canonical p _)

theorem TablesOk.clearedOut (ok : TablesOk s) : TablesOk s.clearedOut := by
  have made := clearedOut_eq s
  have emptied := emptiedOut_eq s
  have features : s.clearedOut.features = s.features.filter (fun e => !s.retiringCodes.contains e.1) := by
    rw [State.clearedOut, features_drainEach, emptiedOut_features]
  have pools : s.clearedOut.pools = s.emptiedOut.pools := (congrArg State.pools made :)
  have holdings : s.clearedOut.holdings = s.emptiedOut.holdings := (congrArg State.holdings made :)
  have waiters : s.clearedOut.waiters = s.emptiedOut.waiters := (congrArg State.waiters made :)
  obtain ⟨-, -, -, -, -, -, -, -, -, projects, users, hosts, terms, -⟩ := still_fields (still_clearedOut s)
  have keys : s.clearedOut.allotments.map (fun a => (a.project, a.pool)) =
      s.allotments.map (fun a => (a.project, a.pool)) := by
    rw [clearedOut_allotments, List.map_map]
    rfl
  exact ⟨features ▸ ok.1.filter _, pools ▸ emptiedOut_pools_canonical ok, projects ▸ ok.3, keys ▸ ok.4,
    users ▸ ok.5, hosts ▸ ok.6, terms ▸ ok.7,
    holdings ▸ emptiedOut_holdings s ▸ tableMap_canonical ok.holdings_canonical.1 _,
    waiters ▸ emptiedOut_waiters s ▸ tableMap_canonical ok.waiters_canonical.1 _⟩

theorem keys_distinct_append {l : List Allotment} (distinct : (l.map (fun a => (a.project, a.pool))).Nodup)
    {a : Allotment} (fresh : l.find? (Allotment.keyed a.project a.pool) = none) :
    ((l ++ [a]).map (fun a => (a.project, a.pool))).Nodup := by
  rw [List.map_append, List.nodup_append]
  refine ⟨distinct, List.nodup_singleton _, fun x listed y same => ?_⟩
  obtain ⟨b, inList, rfl⟩ := List.mem_map.mp listed
  obtain rfl := List.mem_singleton.mp same
  have other := List.find?_eq_none.mp fresh b inList
  simpa [Allotment.keyed] using other

theorem Dealing.tables (dealing : Dealing s t) (ok : TablesOk s) : TablesOk t := by
  cases dealing with
  | shuts => exact ok.withDeadlines _ _ _
  | takes _ handled => exact handled.tables (ok.withDeadlines _ _ _)
  | unlists _ => exact ⟨ok.1, ok.2, ok.3, ok.4, ok.5, ok.6, ok.7, ok.8, ok.9⟩
  | unmarks p => exact ok.setPool p _
  | renews _ => exact ok.placeHolding ..
  | drops _ _ => exact ok.setHolding ..
  | lingers _ _ => exact (ok.placeHolding ..).setPool ..
  | converts _ _ => exact (ok.placeHolding ..).setPool ..
  | ends _ _ _ => exact ok.uncount ..
  | clears _ => exact ok.placeHolding ..
  | cancels _ => exact ok.dequeue ..
  | frees _ => exact ok.placeWaiter ..
  | joins _ _ _ => exact ok.grantPath ..
  | queues _ _ _ _ => exact (ok.placeWaiter ..).setPool ..
  | resizes p capacity borrowCap => exact (ok.setPool ..).recomputedIf ..
  | reallots reserve cap _ =>
    exact (ok.changeAllotment _ _ (g := fun x => { x with reserve := reserve, cap := cap })
      fun _ => ⟨rfl, rfl⟩).recomputedIf ..
  | allots fresh _ _ =>
    have listed : TablesOk { s with allotments := s.allotments ++ [_] } :=
      ⟨ok.1, ok.2, ok.3, keys_distinct_append ok.4 fresh, ok.5, ok.6, ok.7, ok.8, ok.9⟩
    exact listed.setPool ..
  | unallots project pool =>
    have kept : TablesOk { s with allotments := s.allotments.filter (fun x => !x.keyed project pool) } :=
      ⟨ok.1, ok.2, ok.3, ok.4.sublist (List.filter_sublist.map _), ok.5, ok.6, ok.7, ok.8, ok.9⟩
    exact kept.recomputedIf ..
  | creates _ _ _ _ => exact ok.placeFeature ..
  | updates _ _ => exact ok.setFeature ..
  | reclamps _ _ => exact (ok.reclamped ..).placeFeature ..
  | retires _ _ => exact ((ok.setFeature ..).endFeatureWaiters ..).drainReport ..
  | empties _ => exact ok.clearedOut

theorem rising_map_second {α : Type} {l : Table α} (rising : TableRising l) (g : α → α) :
    TableRising (l.map (fun e => (e.1, g e.2))) :=
  List.pairwise_map.mpr rising

theorem writeSlots_canonical (ok : TablesOk s) (f : Frame) (first : Nat) :
    TableCanonical Slot.initial (s.writeSlots f first).terms := by
  simp only [State.writeSlots]
  suffices fold : ∀ (l : List Nat) (u : Table Slot), TableCanonical Slot.initial u → TableCanonical Slot.initial
      (l.foldl (fun t i => tablePut Slot.initial t (first + i) ((carriedSlot f i).getD Slot.initial)) u) from
    fold _ _ ok.terms_canonical
  intro l
  induction l with
  | nil => exact fun u canonical => canonical
  | cons i l ih => exact fun u canonical => ih _ (tablePut_canonical canonical _ _)

theorem Setting.tables (sets : Setting c s t) (ok : TablesOk s) : TablesOk t := by
  cases sets with
  | aside same => exact ok.of_ledger same
  | resets _ _ =>
    exact ⟨.nil, ⟨.nil, nofun⟩, .nil, .nil, .nil, .nil, ⟨.nil, nofun⟩, ⟨.nil, nofun⟩, ⟨.nil, nofun⟩⟩
  | divides _ _ => exact ⟨ok.1, ok.2, ok.3, ok.4, ok.5, ok.6, ok.7, ok.8, ok.9⟩
  | turns _ _ _ => exact ⟨ok.1, ok.2, ok.3, ok.4, ok.5, ok.6, ok.7, ok.8, ok.9⟩
  | stepsTo _ _ => exact ⟨ok.1, ok.2, ok.3, ok.4, ok.5, ok.6, ok.7, ok.8, ok.9⟩
  | stepsBack _ _ _ _ _ => exact ⟨rising_map_second ok.1 _, ok.2, ok.3, ok.4, ok.5, ok.6, ok.7, ok.8, ok.9⟩
  | opens _ => exact ⟨ok.1, ok.2, ok.3, ok.4, ok.5, ok.6, ok.7, ok.8, ok.9⟩
  | closes => exact ⟨ok.1, ok.2, ok.3, ok.4, ok.5, ok.6, ok.7, ok.8, ok.9⟩
  | listsProject fresh _ =>
    refine ⟨ok.1, ok.2, ?_, ok.4, ok.5, ok.6, ok.7, ok.8, ok.9⟩
    exact List.nodup_append.mpr ⟨ok.3, List.nodup_singleton _, fun x listed y same equal =>
      fresh (by rw [← List.mem_singleton.mp same, ← equal]; exact listed)⟩
  | unlistsProject code => exact ⟨ok.1, ok.2, ok.3.erase code, ok.4, ok.5, ok.6, ok.7, ok.8, ok.9⟩
  | removesUser code => exact ⟨ok.1, ok.2, ok.3, ok.4, tableErase_rising ok.5 code, ok.6, ok.7, ok.8, ok.9⟩
  | definesUser u _ => exact ⟨ok.1, ok.2, ok.3, ok.4, tableInsert_rising ok.5 _ u, ok.6, ok.7, ok.8, ok.9⟩
  | removesHost code => exact ⟨ok.1, ok.2, ok.3, ok.4, ok.5, tableErase_rising ok.6 code, ok.7, ok.8, ok.9⟩
  | definesHost cls _ => exact ⟨ok.1, ok.2, ok.3, ok.4, ok.5, tableInsert_rising ok.6 _ cls, ok.7, ok.8, ok.9⟩
  | writes _ => exact ⟨ok.1, ok.2, ok.3, ok.4, ok.5, ok.6, writeSlots_canonical ok _ _, ok.8, ok.9⟩

theorem Deed.tables (deed : Deed c s t) (ok : TablesOk s) : TablesOk t := by
  cases deed with
  | sets sets => exact sets.tables ok
  | deals dealing => exact dealing.tables ok

/-! ### What the shared operations leave of features, allotments and the drained list -/

/-- The features, how many allotments there are, and the drained list. -/
def State.shelves (s : State) : Table Feature × Nat × List Drained := (s.features, s.allotments.length, s.drained)

section Shelves

variable (s : State) (i j p code pool project cost evt : Nat) (h : Holding) (w : Waiter)

theorem shelves_placeHolding : (s.placeHolding i h).shelves = s.shelves := by rw [placeHolding_eq]; rfl
theorem shelves_placeWaiter : (s.placeWaiter j w).shelves = s.shelves := by rw [placeWaiter_eq]; rfl

theorem shelves_changeAllotment (g : Allotment → Allotment) : (s.changeAllotment project pool g).shelves = s.shelves := by
  simp [State.shelves, State.changeAllotment]

theorem shelves_charge : (s.charge pool project cost evt).shelves = s.shelves :=
  shelves_changeAllotment (s.setPool pool _) pool project _

theorem shelves_refund : (s.refund h evt).shelves = s.shelves :=
  shelves_changeAllotment (s.setPool h.pool _) h.pool h.project _

theorem shelves_chargeJoin : (s.chargeJoin h cost evt).shelves = s.shelves := by
  unfold State.chargeJoin
  split
  · rfl
  · exact shelves_charge ..

theorem shelves_grantPath (f : Feature) (a : Asking) (path : Path) :
    (s.grantPath f a path cost i evt).shelves = s.shelves := by
  cases path with
  | fresh => exact (shelves_charge ..).trans (shelves_placeHolding ..)
  | merge k => exact (shelves_chargeJoin ..).trans (shelves_placeHolding ..)
  | reattach k => exact (shelves_chargeJoin ..).trans (shelves_placeHolding ..)

theorem shelves_dequeue : (s.dequeue pool j w).shelves = s.shelves := shelves_placeWaiter ..

theorem shelves_grantWaiter (f : Feature) (path : Path) : (s.grantWaiter j f path cost i evt).shelves = s.shelves :=
  (shelves_dequeue ..).trans (shelves_grantPath ..)

theorem shelves_endFeatureWaiters (reason : WaiterEnd) :
    (s.endFeatureWaiters code reason evt).shelves = s.shelves :=
  endFeatureWaiters_induct (P := fun u => u.shelves = s.shelves) (fun _ _ _ kept => (shelves_dequeue ..).trans kept) rfl

theorem shelves_reclamped (new : Feature) : (s.reclamped code new).shelves = s.shelves := by
  unfold State.reclamped
  split
  · exact reclamp_induct (P := fun u => u.shelves = s.shelves)
      (fun _ _ _ _ _ _ _ kept => (shelves_placeHolding ..).trans kept)
      (fun _ _ _ _ _ _ _ kept => (shelves_placeWaiter ..).trans kept) rfl
  · rfl

theorem shelves_recomputedIf (recompute : Bool) : (s.recomputedIf pool recompute).shelves = s.shelves := by
  unfold State.recomputedIf
  split <;> rfl

theorem shelves_uncounted (x : Holding) :
    ((s.placeHolding i x).refund h evt).shelves = s.shelves :=
  (shelves_refund ..).trans (shelves_placeHolding ..)

end Shelves

theorem features_of_shelves (same : t.shelves = s.shelves) : t.features = s.features := congrArg Prod.fst same

theorem drained_of_shelves (same : t.shelves = s.shelves) : t.drained = s.drained := congrArg (fun x => x.2.2) same

theorem feature_of_shelves (same : t.shelves = s.shelves) (code : Nat) : t.feature code = s.feature code := by
  rw [State.feature, features_of_shelves same, State.feature]

theorem feature_reclamped (s : State) (code : Nat) (new : Feature) (k : Nat) :
    (s.reclamped code new).feature k = s.feature k :=
  feature_of_shelves (shelves_reclamped ..) k

/-! ### Capacities (R7, R9, R13, R20, R22, R25) -/

/-- The features, the allotments and the drained list are within their capacities. -/
structure Fits (s : State) : Prop where
  features : s.features.length ≤ 512
  allotments : s.allotments.length ≤ 256
  drained : s.drained.length ≤ 512

theorem Fits.of_shelves (fits : Fits s) (same : t.shelves = s.shelves) : Fits t := by
  have features : t.features = s.features := features_of_shelves same
  have allotments : t.allotments.length = s.allotments.length := congrArg (fun x => x.2.1) same
  have drained : t.drained = s.drained := drained_of_shelves same
  exact ⟨features ▸ fits.features, allotments ▸ fits.allotments, drained ▸ fits.drained⟩

/-- A write under a number that a table lists leaves its length as it is. -/
theorem length_tableInsert_known {α : Type} {l : Table α} (rising : TableRising l) {k : Nat} {v : α}
    (known : tableFind l k = some v) (w : α) : (tableInsert l k w).length = l.length := by
  have counted := tableSum_insert (fun _ => 1) rising k w
  rw [known] at counted
  simpa [tableSum] using counted

theorem length_tableInsert_le {α : Type} {l : Table α} (rising : TableRising l) (k : Nat) (w : α) :
    (tableInsert l k w).length ≤ l.length + 1 := by
  have counted := tableSum_insert (fun _ => 1) rising k w
  simp only [tableSum, List.map_const', List.sum_replicate, smul_eq_mul, mul_one] at counted
  omega

theorem Fits.setFeature (fits : Fits s) (ok : TablesOk s) {code : Nat} {f : Feature} (known : s.feature code = some f)
    (g : Feature) : Fits (s.setFeature code g) :=
  ⟨(length_tableInsert_known ok.features_rising known g).trans_le fits.features, fits.allotments, fits.drained⟩

theorem Fits.placeFeature (fits : Fits s) (ok : TablesOk s) {code : Nat} {f : Feature} (known : s.feature code = some f)
    (g : Feature) : Fits (s.placeFeature code g) := by
  rw [placeFeature_eq]
  exact ⟨(length_tableInsert_known ok.features_rising known _).trans_le fits.features, fits.allotments, fits.drained⟩

theorem length_addDrained_le (s : State) (d : Drained) (fits : s.drained.length ≤ 512) :
    (s.addDrained d).drained.length ≤ 512 := by
  have length := length_insertDrained d (if Config.drainedRecords ≤ s.drained.length then s.drained.tail else s.drained)
  rw [State.addDrained]
  simp only [length]
  split
  · rw [List.length_tail]
    omega
  · rename_i room
    exact Nat.succ_le_of_lt (Nat.lt_of_not_le room)

theorem Fits.drain (fits : Fits s) (code evt : Nat) : Fits (s.drain code evt) :=
  ⟨(List.length_filter_le _ _).trans fits.features, fits.allotments, length_addDrained_le (s.removeFeature code) _ fits.drained⟩

theorem Fits.drainReport (fits : Fits s) (code evt : Nat) : Fits (s.drainReport code evt) := by
  rcases drainReport_cases s code evt with same | ⟨-, -, drained⟩
  · rw [same]
    exact fits
  · rw [drained]
    exact fits.drain code evt

theorem Fits.uncount (fits : Fits s) (i : Nat) (x : Holding) (evt : Nat) : Fits (s.uncount i x evt) :=
  (fits.of_shelves (shelves_uncounted ..)).drainReport _ _

theorem Handled.fits {d : Deadline} (handled : Handled d s t) (ok : TablesOk s) (fits : Fits s) : Fits t := by
  cases handled with
  | nothing _ => exact fits
  | holding _ _ => exact fits.uncount ..
  | waiter _ _ => exact fits.of_shelves (shelves_dequeue ..)
  | feature _ known => exact (fits.setFeature ok known _).of_shelves (shelves_endFeatureWaiters ..)

theorem Follows.fits (follows : Follows s t) (ok : TablesOk s) (fits : Fits s) : Fits t := by
  induction follows with
  | done s => exact fits
  | marks mark _ ih => exact ih (ok.of_ledger rfl) ⟨fits.1, fits.2, fits.3⟩
  | grants evt _ _ ih => exact ih (ok.grantWaiter ..) (fits.of_shelves (shelves_grantWaiter ..))
  | handles n _ handled _ ih =>
    exact ih (handled.tables (ok.withDeadlines _ _ n)) (handled.fits (ok.withDeadlines _ _ n) ⟨fits.1, fits.2, fits.3⟩)

theorem length_drainEach_drained (u : State) (codes : List Nat) (evt : Nat) (fits : u.drained.length ≤ 512) :
    (u.drainEach codes evt).drained.length ≤ 512 := by
  induction codes generalizing u with
  | nil => exact fits
  | cons code codes ih => exact ih _ (length_addDrained_le (u.removeFeature code) _ fits)

theorem Fits.clearedOut (fits : Fits s) : Fits s.clearedOut := by
  refine ⟨?_, ?_, ?_⟩
  · rw [State.clearedOut, features_drainEach, emptiedOut_features]
    exact (List.length_filter_le _ _).trans fits.features
  · rw [clearedOut_allotments, List.length_map]
    exact fits.allotments
  · rw [State.clearedOut]
    exact length_drainEach_drained _ _ _ (emptiedOut_drained s ▸ fits.drained)

theorem Dealing.fits (dealing : Dealing s t) (ok : TablesOk s) (fits : Fits s) : Fits t := by
  cases dealing with
  | shuts => exact ⟨fits.1, fits.2, fits.3⟩
  | takes _ handled => exact handled.fits (ok.withDeadlines _ _ _) ⟨fits.1, fits.2, fits.3⟩
  | unlists d => exact ⟨fits.1, fits.2, List.length_erase_le.trans fits.3⟩
  | unmarks p => exact ⟨fits.1, fits.2, fits.3⟩
  | renews _ => exact fits.of_shelves (shelves_placeHolding ..)
  | drops _ _ => exact ⟨fits.1, fits.2, fits.3⟩
  | lingers _ _ => exact fits.of_shelves (shelves_placeHolding ..)
  | converts _ _ => exact fits.of_shelves (shelves_placeHolding ..)
  | ends _ _ _ => exact fits.uncount ..
  | clears _ => exact fits.of_shelves (shelves_placeHolding ..)
  | cancels _ => exact fits.of_shelves (shelves_dequeue ..)
  | frees _ => exact fits.of_shelves (shelves_placeWaiter ..)
  | joins _ _ _ => exact fits.of_shelves (shelves_grantPath ..)
  | queues _ _ _ _ => exact fits.of_shelves (shelves_placeWaiter ..)
  | resizes p capacity borrowCap => exact fits.of_shelves (shelves_recomputedIf ..)
  | reallots reserve cap _ => exact fits.of_shelves ((shelves_recomputedIf ..).trans (shelves_changeAllotment ..))
  | allots _ room _ =>
    refine ⟨fits.1, ?_, fits.3⟩
    show (s.allotments ++ [_]).length ≤ 256
    rw [List.length_append]
    exact room
  | unallots project pool =>
    refine Fits.of_shelves (s := { s with allotments := s.allotments.filter (fun x => !x.keyed project pool) })
      ⟨fits.1, (List.length_filter_le _ _).trans fits.2, fits.3⟩ (shelves_recomputedIf ..)
  | creates _ room _ _ =>
    rw [placeFeature_eq]
    exact ⟨(length_tableInsert_le ok.features_rising _ _).trans room, fits.2, fits.3⟩
  | updates replaces _ => exact fits.setFeature ok replaces.found _
  | reclamps replaces _ =>
    exact (fits.of_shelves (shelves_reclamped ..)).placeFeature (ok.reclamped ..)
      ((feature_reclamped ..).trans replaces.found) _
  | retires found _ =>
    exact ((fits.setFeature ok found _).of_shelves (shelves_endFeatureWaiters ..)).drainReport _ _
  | empties _ => exact fits.clearedOut

theorem CapacitiesOk.fits (ok : CapacitiesOk s) : Fits s := ⟨ok.features_fit, ok.allotments_fit, ok.drained_fit⟩

theorem CapacitiesOk.of_still (ok : CapacitiesOk s) (same : t.still = s.still) (fits : Fits t) : CapacitiesOk t := by
  obtain ⟨-, -, -, -, -, -, -, -, -, projects, users, hosts, -⟩ := still_fields same
  exact ⟨fits.features, projects ▸ ok.projects_fit, fits.allotments, users ▸ ok.users_fit, hosts ▸ ok.hosts_fit,
    fits.drained⟩

/-- A write in a directory that has room, or lists the code, keeps it within its capacity. -/
theorem length_tableInsert_room {α : Type} {l : Table α} (rising : TableRising l) {k n : Nat}
    (fits : l.length ≤ n) (room : (tableFind l k).isSome = true ∨ l.length < n) (w : α) :
    (tableInsert l k w).length ≤ n := by
  rcases room with known | room
  · obtain ⟨v, found⟩ := Option.isSome_iff_exists.mp known
    exact (length_tableInsert_known rising found w).trans_le fits
  · exact (length_tableInsert_le rising k w).trans room

theorem Setting.capacities (sets : Setting c s t) (tables : TablesOk s) (ok : CapacitiesOk s) : CapacitiesOk t := by
  cases sets with
  | aside same =>
    have fields := same
    simp only [State.ledger, State.mk.injEq] at fields
    obtain ⟨-, -, -, -, -, -, -, -, -, features, -, projects, allotments, users, hosts, drained, -⟩ := fields
    exact ⟨features ▸ ok.1, projects ▸ ok.2, allotments ▸ ok.3, users ▸ ok.4, hosts ▸ ok.5, drained ▸ ok.6⟩
  | resets _ _ =>
    exact ⟨Nat.zero_le _, Nat.zero_le _, Nat.zero_le _, Nat.zero_le _, Nat.zero_le _, Nat.zero_le _⟩
  | divides _ _ => exact ⟨ok.1, ok.2, ok.3, ok.4, ok.5, ok.6⟩
  | turns _ _ _ => exact ⟨ok.1, ok.2, ok.3, ok.4, ok.5, ok.6⟩
  | stepsTo _ _ => exact ⟨ok.1, ok.2, ok.3, ok.4, ok.5, ok.6⟩
  | stepsBack _ _ _ _ _ => exact ⟨(List.length_map ..).trans_le ok.1, ok.2, ok.3, ok.4, ok.5, ok.6⟩
  | opens _ => exact ⟨ok.1, ok.2, ok.3, ok.4, ok.5, ok.6⟩
  | closes => exact ⟨ok.1, ok.2, ok.3, ok.4, ok.5, ok.6⟩
  | listsProject _ room =>
    refine ⟨ok.1, ?_, ok.3, ok.4, ok.5, ok.6⟩
    show (s.projects ++ [_]).length ≤ 128
    rw [List.length_append]
    exact room
  | unlistsProject code => exact ⟨ok.1, List.length_erase_le.trans ok.2, ok.3, ok.4, ok.5, ok.6⟩
  | removesUser code => exact ⟨ok.1, ok.2, ok.3, (List.length_filter_le _ _).trans ok.4, ok.5, ok.6⟩
  | definesUser u room => exact ⟨ok.1, ok.2, ok.3, length_tableInsert_room tables.users_rising ok.4 room u, ok.5, ok.6⟩
  | removesHost code => exact ⟨ok.1, ok.2, ok.3, ok.4, (List.length_filter_le _ _).trans ok.5, ok.6⟩
  | definesHost cls room =>
    exact ⟨ok.1, ok.2, ok.3, ok.4, length_tableInsert_room tables.hosts_rising ok.5 room cls, ok.6⟩
  | writes _ => exact ⟨ok.1, ok.2, ok.3, ok.4, ok.5, ok.6⟩

theorem Deed.capacities (deed : Deed c s t) (tables : TablesOk s) (ok : CapacitiesOk s) : CapacitiesOk t := by
  cases deed with
  | sets sets => exact sets.capacities tables ok
  | deals dealing => exact ok.of_still dealing.still (dealing.fits tables ok.fits)

/-! ### The order of the drained list (R20, R147) -/

theorem DrainedOrdered.of_shelves (ordered : DrainedOrdered s) (same : t.shelves = s.shelves) : DrainedOrdered t := by
  rw [DrainedOrdered, drained_of_shelves same]
  exact ordered

theorem DrainedOrdered.drain (ordered : DrainedOrdered s) (code evt : Nat) : DrainedOrdered (s.drain code evt) :=
  addDrained_ordered (s := s.removeFeature code) ordered _

theorem DrainedOrdered.drainReport (ordered : DrainedOrdered s) (code evt : Nat) :
    DrainedOrdered (s.drainReport code evt) := by
  rcases drainReport_cases s code evt with same | ⟨-, -, drained⟩
  · rw [same]
    exact ordered
  · rw [drained]
    exact ordered.drain code evt

theorem DrainedOrdered.uncount (ordered : DrainedOrdered s) (i : Nat) (x : Holding) (evt : Nat) :
    DrainedOrdered (s.uncount i x evt) :=
  DrainedOrdered.drainReport (ordered.of_shelves (shelves_uncounted ..)) _ _

theorem drainEach_ordered (ordered : DrainedOrdered s) (codes : List Nat) (evt : Nat) :
    DrainedOrdered (s.drainEach codes evt) := by
  induction codes generalizing s with
  | nil => exact ordered
  | cons code codes ih => exact ih (ordered.drain code evt)

theorem Handled.ordered {d : Deadline} (handled : Handled d s t) (ordered : DrainedOrdered s) : DrainedOrdered t := by
  cases handled with
  | nothing _ => exact ordered
  | holding _ _ => exact ordered.uncount ..
  | waiter _ _ => exact ordered.of_shelves (shelves_dequeue ..)
  | feature _ _ =>
    exact DrainedOrdered.of_shelves (s := s.setFeature d.record _) ordered (shelves_endFeatureWaiters ..)

theorem Follows.ordered (follows : Follows s t) (ordered : DrainedOrdered s) : DrainedOrdered t := by
  induction follows with
  | done s => exact ordered
  | marks mark _ ih => exact ih ordered
  | grants evt _ _ ih => exact ih (ordered.of_shelves (shelves_grantWaiter ..))
  | handles n _ handled _ ih => exact ih (handled.ordered ordered)

theorem Dealing.ordered (dealing : Dealing s t) (ordered : DrainedOrdered s) : DrainedOrdered t := by
  cases dealing with
  | shuts => exact ordered
  | takes _ handled => exact handled.ordered ordered
  | unlists d => exact List.Pairwise.sublist List.erase_sublist ordered
  | unmarks p => exact ordered
  | renews _ => exact ordered.of_shelves (shelves_placeHolding ..)
  | drops _ _ => exact ordered
  | lingers _ _ => exact ordered.of_shelves (shelves_placeHolding ..)
  | converts _ _ => exact ordered.of_shelves (shelves_placeHolding ..)
  | ends _ _ _ => exact ordered.uncount ..
  | clears _ => exact ordered.of_shelves (shelves_placeHolding ..)
  | cancels _ => exact ordered.of_shelves (shelves_dequeue ..)
  | frees _ => exact ordered.of_shelves (shelves_placeWaiter ..)
  | joins _ _ _ => exact ordered.of_shelves (shelves_grantPath ..)
  | queues _ _ _ _ => exact ordered.of_shelves (shelves_placeWaiter ..)
  | resizes p capacity borrowCap => exact ordered.of_shelves (shelves_recomputedIf ..)
  | reallots reserve cap _ => exact ordered.of_shelves ((shelves_recomputedIf ..).trans (shelves_changeAllotment ..))
  | allots _ _ _ => exact ordered
  | unallots project pool =>
    exact DrainedOrdered.of_shelves
      (s := { s with allotments := s.allotments.filter (fun x => !x.keyed project pool) }) ordered
      (shelves_recomputedIf ..)
  | creates _ _ _ _ =>
    rw [DrainedOrdered, placeFeature_drained]
    exact ordered
  | updates _ _ => exact ordered
  | reclamps _ _ =>
    rw [DrainedOrdered, placeFeature_drained]
    exact ordered.of_shelves (shelves_reclamped ..)
  | retires _ _ =>
    exact DrainedOrdered.drainReport
      (DrainedOrdered.of_shelves (s := s.setFeature _ _) ordered (shelves_endFeatureWaiters ..)) _ _
  | empties _ =>
    rw [DrainedOrdered, State.clearedOut]
    exact drainEach_ordered (by rw [DrainedOrdered, emptiedOut_drained]; exact ordered) _ _

theorem Setting.ordered (sets : Setting c s t) (ordered : DrainedOrdered s) : DrainedOrdered t := by
  cases sets with
  | aside same =>
    have drained : t.drained = s.drained := (congrArg State.drained same :)
    rw [DrainedOrdered, drained]
    exact ordered
  | resets _ _ => exact List.Pairwise.nil
  | divides _ _ => exact ordered
  | turns _ _ _ => exact ordered
  | stepsTo _ _ => exact ordered
  | stepsBack _ _ _ _ _ => exact ordered
  | opens _ => exact ordered
  | closes => exact ordered
  | listsProject _ _ => exact ordered
  | unlistsProject _ => exact ordered
  | removesUser _ => exact ordered
  | definesUser _ _ => exact ordered
  | removesHost _ => exact ordered
  | definesHost _ _ => exact ordered
  | writes _ => exact ordered

theorem Deed.ordered (deed : Deed c s t) (ordered : DrainedOrdered s) : DrainedOrdered t := by
  cases deed with
  | sets sets => exact sets.ordered ordered
  | deals dealing => exact dealing.ordered ordered

/-! ### The link (R158, R160, R166) -/

theorem LinkOk.of_linked (ok : LinkOk s) (same : t.linked = s.linked) : LinkOk t := by
  obtain ⟨-, -, -, -, fifo, replies, -⟩ := linked_fields same
  exact ⟨fifo ▸ ok.1, fifo ▸ ok.2, replies ▸ ok.3, replies ▸ ok.4⟩

/-- A frame that joins the FIFO is whole: a Write Frame of fewer words than its length says joins nothing. -/
theorem LinkOk.receiveFrame (ok : LinkOk s) (bytes : List Byte) : LinkOk (s.receiveFrame bytes) := by
  unfold State.receiveFrame
  split
  · exact ⟨ok.1, ok.2, ok.3, ok.4⟩
  rename_i room
  split
  · exact ⟨ok.1, ok.2, ok.3, ok.4⟩
  rename_i w ws _
  split
  · exact ⟨ok.1, ok.2, ok.3, ok.4⟩
  rename_i range
  split
  · exact ⟨ok.1, ok.2, ok.3, ok.4⟩
  rename_i complete
  have length : ((w :: ws).take (lengthOf w)).length = lengthOf w := by
    rw [List.length_take]
    omega
  have first : ((w :: ws).take (lengthOf w)).getD 0 0#16 = w := by
    obtain ⟨n, positive⟩ : ∃ n, lengthOf w = n + 1 := ⟨lengthOf w - 1, by omega⟩
    rw [positive]
    rfl
  refine ⟨?_, fun f listed => ?_, ok.3, ok.4⟩
  · show (s.fifo ++ [_]).length ≤ 16
    rw [List.length_append]
    exact Nat.lt_of_not_le room
  · rcases List.mem_append.mp listed with before | new
    · exact ok.2 f before
    · rw [List.mem_singleton.mp new, length, first]
      exact ⟨by omega, by omega, rfl⟩

theorem LinkOk.transaction (ok : LinkOk s) (command : Option Byte) (sdi : Sent) :
    LinkOk (s.transaction command sdi) := by
  have shifted (sent : List Byte) : LinkOk (s.shiftOut sent sdi.clocked) := ⟨ok.1, ok.2, ok.3, ok.4⟩
  unfold State.transaction
  split
  · exact ⟨ok.1, ok.2, ok.3, ok.4⟩
  split_ifs
  · exact (shifted []).receiveFrame _
  · exact ⟨ok.1, ok.2, List.length_tail.trans_le ((Nat.sub_le _ _).trans ok.3), fun r listed => ok.4 r (List.mem_of_mem_tail listed)⟩
  · exact ⟨ok.1, ok.2, ok.3, ok.4⟩
  · exact ⟨ok.1, ok.2, ok.3, ok.4⟩

theorem LinkOk.unlessLow (ok : LinkOk s) (taken : LinkOk t) : LinkOk (if s.resetLow then s else t) := by
  split
  · exact ok
  · exact taken

/-- A frame that is answered leaves the FIFO, and its reply is whole and finds a place. -/
theorem LinkOk.answered (ok : LinkOk s) {f : Frame} {u : State} (took : s.takeFrame = some (f, u))
    {owner : Frame → State → State × Answer} (serves : ∀ f s, Served s (owner f s)) : LinkOk (answerFrame owner f u) := by
  obtain ⟨-, place, rest, front, rfl⟩ := takeFrame_fields took
  obtain ⟨r, -, ⟨least, most, -, length, -⟩, v, made, linked⟩ := answerFrame_reply serves f (s.leaving rest)
  obtain ⟨-, -, -, -, fifo, -⟩ := linked_fields linked
  have left : v.fifo = rest := fifo
  have room := ok.1
  rw [front, List.length_cons] at room
  rw [made]
  refine ⟨?_, fun g listed => ok.2 g ?_, ?_, fun x listed => ?_⟩
  · rw [left]
    omega
  · rw [left] at listed
    rw [front]
    exact List.mem_cons_of_mem _ listed
  · show (s.replies ++ [r]).length ≤ 16
    rw [List.length_append]
    exact place
  · rcases List.mem_append.mp listed with before | new
    · exact ok.4 x before
    · rw [List.mem_singleton.mp new]
      exact ⟨least, most, length⟩

theorem LinkOk.serveKind (ok : LinkOk s) {kind : Nat} {owner : Frame → State → State × Answer}
    (serves : ∀ f s, Served s (owner f s)) (done : serveKind kind owner s = .next t) : LinkOk t := by
  unfold Machine.serveKind at done
  split at done
  · rename_i f taken took
    split at done
    · cases done
      exact ok.answered took serves
    · cases done
      exact ok
  · cases done
    exact ok

theorem LinkOk.badRequest (ok : LinkOk s) (done : execBadRequest s = .next t) : LinkOk t := by
  unfold execBadRequest at done
  split at done
  · rename_i f taken took
    split at done
    · cases done
      exact ok.answered took fun _ _ => Served.refused ..
    · cases done
      exact ok
  · cases done
    exact ok

theorem linked_advance (s : State) : s.advance.linked = s.linked := by
  unfold State.advance
  split
  · rfl
  · exact linked_closeSecond { s with divider := 0 }

theorem linked_takeReached (s : State) (kind : DeadlineKind) (record : Nat) :
    (s.takeReached kind record).linked = s.linked := by
  unfold State.takeReached
  split
  · exact linked_of_still ((still_settle _).trans (still_handle (s.taken _) _))
  · rfl

theorem LinkOk.exec (ok : LinkOk s) (done : exec c s = .next t) : LinkOk t := by
  have reset (low : Bool) : LinkOk { s.toReset with resetLow := low } :=
    ⟨Nat.zero_le _, nofun, Nat.zero_le _, nofun⟩
  cases c with
  | writeFrame sdi =>
    cases done
    have shifted : LinkOk (s.shiftOut [] sdi.clocked) := ⟨ok.1, ok.2, ok.3, ok.4⟩
    exact ok.unlessLow (shifted.receiveFrame _)
  | readFrame clocked =>
    cases done
    exact ok.unlessLow ⟨ok.1, ok.2, List.length_tail.trans_le ((Nat.sub_le _ _).trans ok.3),
      fun r listed => ok.4 r (List.mem_of_mem_tail listed)⟩
  | readStatus clocked =>
    cases done
    exact ok.unlessLow ⟨ok.1, ok.2, ok.3, ok.4⟩
  | badCommandByte command sdi =>
    cases done
    exact ok.unlessLow (ok.transaction command sdi)
  | deviceReset =>
    cases done
    exact reset true
  | resetRelease =>
    cases done
    split
    · exact reset false
    · exact ok
  | admenChange level =>
    cases done
    exact ⟨ok.1, ok.2, ok.3, ok.4⟩
  | siteTimeAdvance =>
    change execSiteTimeAdvance s = .next t at done
    unfold execSiteTimeAdvance at done
    split at done
    · cases done
      exact ok
    · cases done
      exact ok.of_linked (linked_advance s)
  | refclkPeriod =>
    change execRefclkPeriod s = .next t at done
    unfold execRefclkPeriod at done
    split at done
    · cases done
      exact ok
    split at done
    · cases done
      exact ⟨ok.1, ok.2, ok.3, ok.4⟩
    · cases done
      exact ok.of_linked (linked_advance s)
  | leaseExpiry entry =>
    cases done
    exact ok.of_linked (linked_takeReached ..)
  | lingerEnd entry =>
    cases done
    exact ok.of_linked (linked_takeReached ..)
  | borrowEnd entry =>
    cases done
    exact ok.of_linked (linked_takeReached ..)
  | waitDeadline entry =>
    cases done
    exact ok.of_linked (linked_takeReached ..)
  | featureEndInstant code =>
    cases done
    exact ok.of_linked (linked_takeReached ..)
  | badRequest => exact ok.badRequest done
  | checkout => exact ok.serveKind checkout_served done
  | renew => exact ok.serveKind renew_served done
  | release => exact ok.serveKind release_served done
  | borrow => exact ok.serveKind borrow_served done
  | giveBack => exact ok.serveKind return_served done
  | cancelWait => exact ok.serveKind cancelWait_served done
  | queryHolding => exact ok.serveKind queryHolding_served done
  | queryPool => exact ok.serveKind queryPool_served done
  | nextNotice => exact ok.serveKind nextNotice_served done
  | setTime => exact ok.serveKind setTime_served done
  | openService => exact ok.serveKind openService_served done
  | closeService => exact ok.serveKind closeService_served done
  | definePool => exact ok.serveKind definePool_served done
  | defineProject => exact ok.serveKind defineProject_served done
  | removeProject => exact ok.serveKind removeProject_served done
  | defineAllotment => exact ok.serveKind defineAllotment_served done
  | removeAllotment => exact ok.serveKind removeAllotment_served done
  | defineFeature => exact ok.serveKind defineFeature_served done
  | retireFeature => exact ok.serveKind retireFeature_served done
  | queryFeature => exact ok.serveKind queryFeature_served done
  | writeTerms => exact ok.serveKind writeTerms_served done
  | defineUser => exact ok.serveKind defineUser_served done
  | defineHost => exact ok.serveKind defineHost_served done
  | setNoticeLevels => exact ok.serveKind setNoticeLevels_served done
  | clearHoldings => exact ok.serveKind clearHoldings_served done

end Sys2Proof.Machine

namespace Sys2Proof.Claims

open Sys2Proof.Machine

/-- Settles O52: each act and each consequence keeps the clock, the tables and the drained list, and each command the
link. -/
theorem stepsKeepLinkClockAndTables : Obligations.StepsKeepLinkClockAndTables := by
  intro s t stepped
  refine ⟨fun link clock tables capacities => ?_, fun ordered => ?_⟩
  · have linkKept : LinkOk t := by
      rcases step_cases stepped with rfl | ⟨c, rest, -, done⟩
      · exact link
      · exact LinkOk.exec (s := { s with pending := rest }) ⟨link.1, link.2, link.3, link.4⟩ done
    obtain ⟨clockKept, tablesKept, capacitiesKept⟩ :=
      step_keeps (P := fun u => ClockOk u ∧ TablesOk u ∧ CapacitiesOk u)
        (fun c u v deed ⟨clock, tables, capacities⟩ =>
          ⟨deed.clock clock, deed.tables tables, deed.capacities tables capacities⟩)
        (fun u v follows ⟨clock, tables, capacities⟩ =>
          ⟨clock_of_still follows.still clock, follows.tables tables,
            capacities.of_still follows.still (follows.fits tables capacities.fits)⟩)
        stepped ⟨clock, tables, capacities⟩
    exact ⟨linkKept, clockKept, tablesKept, capacitiesKept⟩
  · exact step_keeps (P := DrainedOrdered) (fun _ _ _ deed kept => deed.ordered kept)
      (fun _ _ follows kept => follows.ordered kept) stepped ordered

end Sys2Proof.Claims
end

section
/-! SUPPORT. Every feature that has a chain start points to a well-formed chain: the proof of O58. -/

namespace Sys2Proof.Machine

open Sys2Proof.Claims

variable {c : Instr} {s t : State}

/-! ### What the form of a chain depends on -/

/-- The form of a chain depends on its own slots alone. -/
theorem wellFormedChain_of_slots {start n : Nat} (formed : WellFormedChain s start n)
    (same : ∀ k, k < n → t.slot (start + k) = s.slot (start + k)) : WellFormedChain t start n := by
  obtain ⟨least, most, inside, good, ends, runsOn⟩ := formed
  have after (k : Nat) (within : k < n) (lo : Word) : AfterHosts t start k lo ↔ AfterHosts s start k lo := by
    constructor
    · rintro ⟨m, c, negate, last, rfl, hosts⟩
      exact ⟨m, c, negate, last, rfl, same m (by omega) ▸ hosts⟩
    · rintro ⟨m, c, negate, last, rfl, hosts⟩
      exact ⟨m, c, negate, last, rfl, (same m (by omega)).trans hosts⟩
  have endsAt (k : Nat) (within : k < n) : EndsAt t start k ↔ EndsAt s start k := by
    rw [EndsAt, EndsAt, same k within]
    refine or_congr Iff.rfl ⟨?_, ?_⟩
    · rintro ⟨m, c, negate, lo, hi, rfl, hosts, extension⟩
      exact ⟨m, c, negate, lo, hi, rfl, same m (by omega) ▸ hosts, extension⟩
    · rintro ⟨m, c, negate, lo, hi, rfl, hosts, extension⟩
      exact ⟨m, c, negate, lo, hi, rfl, (same m (by omega)).trans hosts, extension⟩
  refine ⟨least, most, inside, fun k within => ?_, (endsAt _ (by omega)).mpr ends,
    fun k within => mt (endsAt k (by omega)).mp (runsOn k within)⟩
  simp only [GoodSlot, after k within, same k within]
  exact good k within

theorem chainFault_of_slots {start : Nat} (passes : s.chainFault start = none)
    (same : ∀ k, k < s.chainLength start → t.slot (start + k) = s.slot (start + k)) : t.chainFault start = none :=
  (formCheckFindsTheFirstBadSlot t start).1.mpr ⟨_, wellFormedChain_of_slots (wellFormed_chainLength passes) same⟩

theorem chainFault_of_terms (same : t.terms = s.terms) {start : Nat} (passes : s.chainFault start = none) :
    t.chainFault start = none :=
  chainFault_of_slots passes fun k _ => by rw [State.slot, same, State.slot]

theorem slotInUse_of_chain {code start k : Nat} {f : Feature} (found : s.feature code = some f)
    (chained : f.chain = some start) (inside : k < s.chainLength start) : s.slotInUse (start + k) = true := by
  refine List.any_eq_true.mpr ⟨(code, f), mem_of_tableFind found, ?_⟩
  simp [chained, inside]

/-! ### The law of chains (R41) -/

namespace ChainsOk

/-- Fewer features, or features with chains as before, over the same term store. -/
theorem of_chains (ok : ChainsOk s) (terms : t.terms = s.terms)
    (known : ∀ code g, t.feature code = some g → ∃ f, s.feature code = some f ∧ g.chain = f.chain) : ChainsOk t := by
  intro code g start found chained
  obtain ⟨f, before, same⟩ := known code g found
  exact chainFault_of_terms terms (ok code f start before (same ▸ chained))

theorem of_features (ok : ChainsOk s) (terms : t.terms = s.terms) (features : t.features = s.features) : ChainsOk t :=
  ok.of_chains terms fun code g found => ⟨g, by rwa [State.feature, ← features], rfl⟩

theorem of_shelves (ok : ChainsOk s) (still : t.still = s.still) (same : t.shelves = s.shelves) : ChainsOk t := by
  obtain ⟨-, -, -, -, -, -, -, -, -, -, -, -, terms, -⟩ := still_fields still
  exact ok.of_features terms (features_of_shelves same)

/-- A feature is written whose chain passes the form check. -/
theorem insert (ok : ChainsOk s) {code : Nat} {f g : Feature} (passes : s.featureChainFault f = none)
    (same : g.chain = f.chain) (terms : t.terms = s.terms) (features : t.features = tableInsert s.features code g) :
    ChainsOk t := by
  intro k h start found chained
  rw [State.feature, features, tableFind_insert] at found
  split at found
  · cases found
    simp only [State.featureChainFault, ← same, chained] at passes
    exact chainFault_of_terms terms passes
  · exact chainFault_of_terms terms (ok k h start found chained)

/-- A feature is written again with the chain that it had. -/
theorem rewrite (ok : ChainsOk s) {code : Nat} {f : Feature} (found : s.feature code = some f) (g : Feature)
    (same : g.chain = f.chain) : ChainsOk (s.setFeature code g) := by
  refine ok.insert (f := f) (g := g) ?_ same rfl rfl
  unfold State.featureChainFault
  split
  · rename_i start chained
    exact ok code f start found chained
  · rfl

theorem drain (ok : ChainsOk s) (code evt : Nat) : ChainsOk (s.drain code evt) :=
  ok.of_chains rfl fun k g found => by
    rw [feature_drain] at found
    split at found
    · cases found
    · exact ⟨g, found, rfl⟩

theorem drainReport (ok : ChainsOk s) (code evt : Nat) : ChainsOk (s.drainReport code evt) := by
  rcases drainReport_cases s code evt with same | ⟨-, -, drained⟩
  · rw [same]
    exact ok
  · rw [drained]
    exact ok.drain code evt

theorem uncount (ok : ChainsOk s) (i : Nat) (x : Holding) (evt : Nat) : ChainsOk (s.uncount i x evt) :=
  ChainsOk.drainReport (ok.of_shelves (by simp) (shelves_uncounted ..)) _ _

end ChainsOk

theorem Handled.chains {d : Deadline} (handled : Handled d s t) (ok : ChainsOk s) : ChainsOk t := by
  cases handled with
  | nothing _ => exact ok
  | holding _ _ => exact ok.uncount _ _ _
  | waiter _ _ => exact ok.of_shelves (still_dequeue ..) (shelves_dequeue ..)
  | @feature f _ _ found =>
    exact (ok.rewrite found { f with endLodged := false } rfl).of_shelves (still_endFeatureWaiters ..)
      (shelves_endFeatureWaiters ..)

theorem Follows.chains (follows : Follows s t) (ok : ChainsOk s) : ChainsOk t := by
  induction follows with
  | done s => exact ok
  | marks mark _ ih => exact ih (ok.of_features rfl rfl)
  | grants evt _ _ ih => exact ih (ok.of_shelves (still_grantWaiter ..) (shelves_grantWaiter ..))
  | handles n _ handled _ ih => exact ih (handled.chains (ok.of_features rfl rfl))

theorem Dealing.chains (dealing : Dealing s t) (tables : TablesOk s) (ok : ChainsOk s) : ChainsOk t := by
  have still := dealing.still
  cases dealing with
  | shuts => exact ok.of_features rfl rfl
  | takes _ handled => exact handled.chains (ok.of_features rfl rfl)
  | unlists _ => exact ok.of_features rfl rfl
  | unmarks _ => exact ok.of_features rfl rfl
  | renews _ => exact ok.of_shelves still (shelves_placeHolding ..)
  | drops _ _ => exact ok.of_features rfl rfl
  | lingers _ _ => exact ok.of_shelves still (shelves_placeHolding ..)
  | converts _ _ => exact ok.of_shelves still (shelves_placeHolding ..)
  | ends _ _ _ => exact ok.uncount _ _ _
  | clears _ => exact ok.of_shelves still (shelves_placeHolding ..)
  | cancels _ => exact ok.of_shelves still (shelves_dequeue ..)
  | frees _ => exact ok.of_shelves still (shelves_placeWaiter ..)
  | joins _ _ _ => exact ok.of_shelves still (shelves_grantPath ..)
  | queues _ _ _ _ => exact ok.of_shelves still (shelves_placeWaiter ..)
  | resizes _ _ _ => exact ok.of_shelves still (shelves_recomputedIf ..)
  | reallots _ _ _ => exact ok.of_shelves still ((shelves_recomputedIf ..).trans (shelves_changeAllotment ..))
  | allots _ _ _ => exact ok.of_features rfl rfl
  | unallots project pool =>
    have kept : ChainsOk { s with allotments := s.allotments.filter (fun x => !x.keyed project pool) } :=
      ok.of_features rfl rfl
    exact kept.of_shelves still (shelves_recomputedIf ..)
  | creates _ _ _ passes => exact ok.insert (g := Feature.lodged _) passes rfl (by rw [placeFeature_eq]) (by rw [placeFeature_eq])
  | @updates code old new replaces _ =>
    exact ok.insert (g := { new with endLodged := old.endLodged }) replaces.formed rfl rfl rfl
  | reclamps replaces _ =>
    obtain ⟨-, -, -, -, -, -, -, -, -, -, -, -, terms, -⟩ := still_fields still
    exact ok.insert (g := Feature.lodged _) replaces.formed rfl terms
      (by rw [placeFeature_features, features_of_shelves (shelves_reclamped ..)])
  | @retires code f found _ =>
    exact ChainsOk.drainReport
      ((ok.rewrite found { f with state := .retiring } rfl).of_shelves (still_endFeatureWaiters ..) (shelves_endFeatureWaiters ..)) _ _
  | empties _ =>
    obtain ⟨-, -, -, -, -, -, -, -, -, -, -, -, terms, -⟩ := still_fields still
    refine ok.of_chains terms fun code g found => ⟨g, ?_, rfl⟩
    rw [State.feature, State.clearedOut, features_drainEach, emptiedOut_features] at found
    exact tableFind_of_mem tables.features_rising (List.mem_of_mem_filter (mem_of_tableFind found))

theorem tableFind_map_second {α : Type} (l : Table α) (g : α → α) (k : Nat) :
    tableFind (l.map (fun e => (e.1, g e.2))) k = (tableFind l k).map g := by
  induction l with
  | nil => rfl
  | cons e l ih =>
    simp only [List.map_cons, tableFind, ih]
    split <;> rfl

theorem lodgedAfter_chain (v : Nat) (f : Feature) : (f.lodgedAfter v).chain = f.chain := by
  unfold Feature.lodgedAfter
  split
  · split <;> rfl
  · rfl

theorem Setting.chains (sets : Setting c s t) (ok : ChainsOk s) : ChainsOk t := by
  cases sets with
  | aside same => exact ok.of_features (congrArg State.terms same :) (congrArg State.features same :)
  | resets _ _ => exact fun _ _ _ found => nomatch found
  | divides _ _ => exact ok.of_features rfl rfl
  | turns _ _ _ => exact ok.of_features rfl rfl
  | stepsTo _ _ => exact ok.of_features rfl rfl
  | @stepsBack v _ _ _ _ _ =>
    refine ok.of_chains rfl fun code g found => ?_
    change tableFind (s.features.map (fun e => (e.1, e.2.lodgedAfter v))) code = some g at found
    rw [tableFind_map_second, Option.map_eq_some_iff] at found
    obtain ⟨f, before, rfl⟩ := found
    exact ⟨f, before, lodgedAfter_chain v f⟩
  | opens _ => exact ok.of_features rfl rfl
  | closes => exact ok.of_features rfl rfl
  | listsProject _ _ => exact ok.of_features rfl rfl
  | unlistsProject _ => exact ok.of_features rfl rfl
  | removesUser _ => exact ok.of_features rfl rfl
  | definesUser _ _ => exact ok.of_features rfl rfl
  | removesHost _ => exact ok.of_features rfl rfl
  | definesHost _ _ => exact ok.of_features rfl rfl
  | @writes f first unused =>
    intro code g start found chained
    refine chainFault_of_slots (ok code g start found chained) fun k inside => slot_writeSlots_other s f ?_
    by_contra between
    obtain ⟨i, place⟩ : ∃ i, start + k = first + i := ⟨start + k - first, by omega⟩
    have used := slotInUse_of_chain (s := s) found chained inside
    rw [place] at used
    exact Bool.false_ne_true (((unused i (by omega)).symm.trans used))

theorem Deed.chains (deed : Deed c s t) (tables : TablesOk s) (ok : ChainsOk s) : ChainsOk t := by
  cases deed with
  | sets sets => exact sets.chains ok
  | deals dealing => exact dealing.chains tables ok

end Sys2Proof.Machine

namespace Sys2Proof.Claims

open Sys2Proof.Machine

/-- Settles O58: no act but Define Feature gives a feature a chain, and that one has passed the form check; Write Terms
writes no slot of a chain. -/
theorem stepsKeepTheLawOfChains : Obligations.StepsKeepTheLawOfChains := by
  intro s t tables chains stepped
  exact (step_keeps (P := fun u => TablesOk u ∧ ChainsOk u)
    (fun c u v deed ⟨tables, chains⟩ => ⟨deed.tables tables, deed.chains tables chains⟩)
    (fun u v follows ⟨tables, chains⟩ => ⟨follows.tables tables, follows.chains chains⟩) stepped ⟨tables, chains⟩).2

end Sys2Proof.Claims
end

section
/-! SUPPORT. What the commands do to the entries, the features and the queues, as strokes of a few kinds: each act and
each consequence is a run of strokes, and the invariants on entries are properties that every stroke keeps. -/

namespace Sys2Proof.Machine

open Sys2Proof.Claims

variable {c : Instr} {s t u : State}

/-! ### The roll -/

/-- The entries, the features and the queues, without the figures of the pools. -/
structure SameRoll (s t : State) : Prop where
  holding : t.holdings = s.holdings
  waiter : t.waiters = s.waiters
  feature : t.features = s.features
  queue : ∀ p, (t.pool p).queue = (s.pool p).queue

namespace SameRoll

theorem refl (s : State) : SameRoll s s := ⟨rfl, rfl, rfl, fun _ => rfl⟩

theorem trans (first : SameRoll s t) (second : SameRoll t u) : SameRoll s u :=
  ⟨second.1.trans first.1, second.2.trans first.2, second.3.trans first.3,
    fun p => (second.4 p).trans (first.4 p)⟩

theorem symm (same : SameRoll s t) : SameRoll t s :=
  ⟨same.1.symm, same.2.symm, same.3.symm, fun p => (same.4 p).symm⟩

theorem holding_eq (same : SameRoll s t) (i : Nat) : t.holding i = s.holding i := by
  rw [State.holding, same.1, State.holding]

theorem waiter_eq (same : SameRoll s t) (j : Nat) : t.waiter j = s.waiter j := by
  rw [State.waiter, same.2, State.waiter]

theorem feature_eq (same : SameRoll s t) (code : Nat) : t.feature code = s.feature code := by
  rw [State.feature, same.3, State.feature]

/-- A pool is written with the queue that it had. -/
theorem setPool (s : State) (p : Nat) {q : Pool} (kept : q.queue = (s.pool p).queue) : SameRoll s (s.setPool p q) := by
  refine ⟨rfl, rfl, rfl, fun k => ?_⟩
  rw [pool_setPool]
  split
  · rename_i same
    rw [kept, same]
  · rfl

theorem placeHolding (s : State) (i : Nat) (h : Holding) : SameRoll (s.setHolding i h) (s.placeHolding i h) := by
  rw [placeHolding_eq]
  exact ⟨rfl, rfl, rfl, fun _ => rfl⟩

theorem placeWaiter (s : State) (j : Nat) (w : Waiter) : SameRoll (s.setWaiter j w) (s.placeWaiter j w) := by
  rw [placeWaiter_eq]
  exact ⟨rfl, rfl, rfl, fun _ => rfl⟩

theorem charge (s : State) (pool project cost evt : Nat) : SameRoll s (s.charge pool project cost evt) := by
  refine ⟨rfl, rfl, rfl, fun k => ?_⟩
  rw [pool_charge]
  split
  · rename_i same
    rw [same]
    rfl
  · rfl

theorem chargeJoin (s : State) (h : Holding) (cost evt : Nat) : SameRoll s (s.chargeJoin h cost evt) := by
  unfold State.chargeJoin
  split
  · exact refl _
  · exact charge ..

theorem unlinger (s : State) (pool tokens : Nat) : SameRoll s (s.unlinger pool tokens) := setPool s pool rfl

theorem refund (s : State) (h : Holding) (evt : Nat) : SameRoll s (s.refund h evt) := by
  refine ⟨rfl, rfl, rfl, fun k => ?_⟩
  rw [pool_refund]
  split
  · rename_i same
    rw [same]
    rfl
  · rfl

theorem recomputeOver (s : State) (pool evt : Nat) : SameRoll s (s.recomputeOver pool evt) := setPool s pool rfl

theorem recomputedIf (s : State) (pool : Nat) (recompute : Bool) : SameRoll s (s.recomputedIf pool recompute) := by
  unfold State.recomputedIf
  split
  · exact setPool s pool rfl
  · exact refl _

end SameRoll

/-! ### Strokes -/

/-- A counted holding goes on: its record changes in its state, seats, references, tokens and deadline alone, and its
deadline does not move back past a clamp (R65, R68, R134). -/
structure GoesOn (s : State) (i : Nat) (h : Holding) : Prop where
  counted : (s.holding i).state.counted = true
  stays : h.state.counted = true
  gen : h.gen = (s.holding i).gen
  feature : h.feature = (s.holding i).feature
  pool : h.pool = (s.holding i).pool
  user : h.user = (s.holding i).user
  host : h.host = (s.holding i).host
  project : h.project = (s.holding i).project
  refs : (s.holding i).refsOk → h.refsOk
  keyed : h.state = .live ∨ h.state = .lingering →
    (s.holding i).state = .live ∨ (s.holding i).state = .lingering
  clamped : h.deadline ≤ (s.holding i).deadline ∨ ∃ n, h.deadline = (s.featureOf h.feature).clamp n

/-- A new holding of a feature, in an entry that is FREE or LAPSED, and under a merge key that no other has (R68, R71,
R79). -/
structure IsNew (s : State) (f : Feature) (i : Nat) (h : Holding) : Prop where
  vacant : (i < 8192 ∧ (s.holding i).state = .free) ∨ (s.holding i).state = .lapsed
  live : h.state = .live
  refs : h.refs = 1
  gen : h.gen = (s.holding i).gen ∨ h.gen = nextGen (s.holding i).gen
  known : s.feature h.feature = some f
  pool : h.pool = f.pool
  fresh : f.sharing ≠ .separate → ∀ k, (s.holding k).state = .live ∨ (s.holding k).state = .lingering →
    ¬sameMergeKey f.sharing h (s.holding k)
  clamped : ∃ n, h.deadline = f.clamp n

/-- The record of a feature is written again: it may retire where no waiter of it waits, its pool and its sharing kind
change only where nothing holds or waits, and no deadline lies past its end instant (R16 to R18). -/
structure Rewrites (s : State) (code : Nat) (f g : Feature) : Prop where
  known : s.feature code = some f
  state : g.state = f.state ∨ ¬Waited s code
  unmoved : (g.pool = f.pool ∧ g.sharing = f.sharing) ∨ (¬Held s code ∧ ¬Waited s code)
  clamped : g.endInstant = f.endInstant
    ∨ ∀ e, g.endInstant = some e →
        (∀ i, (s.holding i).state.counted = true → (s.holding i).feature = code → (s.holding i).deadline ≤ e)
        ∧ ∀ j, (s.waiter j).state = .waiting → (s.waiter j).feature = code → (s.waiter j).deadline ≤ e

/-- A stroke: what one operation does to the entries, the features and the queues, with what holds before it. -/
inductive Stroke (s : State) : State → Prop
  | aside {t : State} : SameRoll s t → Stroke s t
  | leaves {i : Nat} {x : Holding} : (s.holding i).state ≠ .free → (s.holding i).EndsAs x →
      Stroke s (s.setHolding i x)
  | goesOn {i : Nat} {h : Holding} : GoesOn s i h → Stroke s (s.setHolding i h)
  | begins {f : Feature} {i : Nat} {h : Holding} : IsNew s f i h → Stroke s (s.setHolding i h)
  | hastens {j e : Nat} : e ≤ (s.waiter j).deadline →
      Stroke s (s.setWaiter j { s.waiter j with deadline := e })
  | departs {j : Nat} {w : Waiter} : (s.waiter j).state = .waiting → w.state ≠ .waiting →
      w.gen = (s.waiter j).gen ∨ w.gen = nextGen (s.waiter j).gen →
      Stroke s ((s.leaveQueue (s.featureOf (s.waiter j).feature).pool j).setWaiter j w)
  | forgets {j : Nat} : (s.waiter j).state ≠ .waiting →
      Stroke s (s.setWaiter j (Waiter.freeEntry (nextGen (s.waiter j).gen)))
  | waits {f : Feature} {j : Nat} {w : Waiter} : j < 256 → (s.waiter j).state = .free → w.state = .waiting →
      w.gen = (s.waiter j).gen → s.feature w.feature = some f → f.state = .active → (∃ n, w.deadline = f.clamp n) →
      Stroke s ((s.setWaiter j w).joinQueue f.pool j w.cls)
  | drains {code : Nat} {f : Feature} (evt : Nat) : s.feature code = some f → f.state = .retiring → ¬Held s code →
      Stroke s (s.drain code evt)
  | rewrites {code : Nat} {f g : Feature} : Rewrites s code f g → Stroke s (s.setFeature code g)
  | creates {code : Nat} {g : Feature} : s.feature code = none → g.state = .active → Stroke s (s.setFeature code g)

/-- A run of strokes. -/
abbrev Strokes : State → State → Prop := Relation.ReflTransGen Stroke

theorem Strokes.aside (same : SameRoll s t) : Strokes s t := .single (.aside same)

theorem Strokes.then (strokes : Strokes s t) (same : SameRoll t u) : Strokes s u := strokes.tail (.aside same)

theorem Strokes.one (stroke : Stroke s t) (same : SameRoll t u) : Strokes s u :=
  .tail (.single stroke) (.aside same)

theorem Strokes.keeps {P : State → Prop} (strokes : Strokes s t) (each : ∀ s t, Stroke s t → P s → P t) (holds : P s) :
    P t := by
  induction strokes with
  | refl => exact holds
  | tail _ stroke ih => exact each _ _ stroke ih

/-! ### The shared operations as strokes -/

theorem strokes_drainReport (tables : TablesOk s) (code evt : Nat) : Strokes s (s.drainReport code evt) := by
  rcases drainReport_cases s code evt with same | ⟨⟨f, known, retiring⟩, unheld, drained⟩
  · rw [same]
  · rw [drained]
    refine .single (.drains evt known retiring fun held => ?_)
    rw [(featureHeld_iff tables.holdings_canonical.1 code).mpr held] at unheld
    cases unheld

theorem strokes_uncount (tables : TablesOk s) {i : Nat} {x : Holding} (evt : Nat)
    (counted : (s.holding i).state.counted = true) (ends : (s.holding i).EndsAs x) : Strokes s (s.uncount i x evt) := by
  have left : Strokes s ((s.placeHolding i x).refund (s.holding i) evt) :=
    .one (.leaves (fun free => by rw [free] at counted; cases counted) ends)
      ((SameRoll.placeHolding ..).trans (SameRoll.refund ..))
  exact left.trans (strokes_drainReport ((tables.placeHolding i x).refund _ evt) _ evt)

theorem strokes_dequeue {j : Nat} {w : Waiter} (waits : (s.waiter j).state = .waiting) (gone : w.state ≠ .waiting)
    (gen : w.gen = (s.waiter j).gen ∨ w.gen = nextGen (s.waiter j).gen) {pool : Nat}
    (home : pool = (s.featureOf (s.waiter j).feature).pool) : Strokes s (s.dequeue pool j w) := by
  subst home
  exact .one (.departs waits gone gen) (SameRoll.placeWaiter (s.leaveQueue _ j) j w)

theorem strokes_endFeatureWaiters (tables : TablesOk s) (code : Nat) (reason : WaiterEnd) (evt : Nat) :
    Strokes s (s.endFeatureWaiters code reason evt) := by
  refine endFeatureWaiters_induct (P := Strokes s) (fun u j found strokes => strokes.trans ?_) .refl
  rw [endWaiter_eq]
  exact strokes_dequeue (w := (u.waiter j).endedAs reason evt) (found tables.waiters_canonical.1).1 nofun (.inl rfl) rfl

theorem strokes_placeHolding_goesOn {i : Nat} {h : Holding} (goes : GoesOn s i h) : Strokes s (s.placeHolding i h) :=
  .one (.goesOn goes) (SameRoll.placeHolding ..)

theorem strokes_reclamped (tables : TablesOk s) (code : Nat) (new : Feature) :
    Strokes s (s.reclamped code new) := by
  unfold State.reclamped
  split
  · rename_i e _
    refine reclamp_induct (P := Strokes s) (fun u i h counted same late found strokes => ?_)
      (fun u j w waits same late found strokes => ?_) .refl
    · obtain rfl := found tables.holdings_canonical.1
      exact strokes.trans (strokes_placeHolding_goesOn
        ⟨counted, counted, rfl, rfl, rfl, rfl, rfl, rfl, id, id, .inl late.le⟩)
    · obtain rfl := found tables.waiters_canonical.1
      exact strokes.trans (Strokes.one (.hastens late.le) (SameRoll.placeWaiter ..))
  · exact .refl

/-! ### What the walks over the entries of a feature leave in each entry -/

/-- A walk over a table of rising numbers that writes each listed number once, in the same way: every number ends with
what the way makes of it. -/
theorem walk_look {α : Type} {l : Table α} {act : State → Nat × α → State} {look : State → Nat → α} {g : α → α}
    (rising : TableRising l) (apart : ∀ u e k, k ≠ e.1 → look (act u e) k = look u k)
    (writes : ∀ u e, look u e.1 = e.2 → look (act u e) e.1 = g e.2) {s : State}
    (finds : ∀ e ∈ l, look s e.1 = e.2) {k : Nat} (unlisted : (∀ e ∈ l, e.1 ≠ k) → g (look s k) = look s k) :
    look (l.foldl act s) k = g (look s k) := by
  induction l generalizing s with
  | nil => exact (unlisted nofun).symm
  | cons e l ih =>
    obtain ⟨above, rising⟩ := List.pairwise_cons.mp rising
    have kept (x : Nat × α) (listed : x ∈ l) : look (act s e) x.1 = x.2 := by
      rw [apart s e x.1 (Nat.ne_of_gt (above x listed))]
      exact finds x (List.mem_cons_of_mem _ listed)
    rw [List.foldl_cons]
    by_cases here : k = e.1
    · subst here
      have written := writes s e (finds e List.mem_cons_self)
      rw [finds e List.mem_cons_self, ← written]
      suffices rest : ∀ (m : Table α) (u : State), (∀ x ∈ m, x.1 ≠ e.1) → look (m.foldl act u) e.1 = look u e.1 from
        rest l _ fun x listed => Nat.ne_of_gt (above x listed)
      intro m
      induction m with
      | nil => exact fun _ _ => rfl
      | cons x m ih =>
        intro u others
        rw [List.foldl_cons, ih _ fun y listed => others y (List.mem_cons_of_mem _ listed),
          apart u x e.1 (others x List.mem_cons_self).symm]
    · rw [ih rising kept ?_, apart s e k here]
      intro absent
      rw [apart s e k here]
      exact unlisted fun x listed => by
        rcases List.mem_cons.mp listed with rfl | listed
        · exact fun same => here same.symm
        · exact absent x listed

theorem tableGet_unlisted {α : Type} {d : α} {l : Table α} {k : Nat} (absent : ∀ e ∈ l, e.1 ≠ k) :
    tableGet d l k = d := by
  rw [tableGet]
  cases found : tableFind l k with
  | none => rfl
  | some v => exact absurd rfl (absent _ (mem_of_tableFind found))

/-- What becomes of a waiter when the waiters of a feature end (R121). -/
def Waiter.endedWith (code : Nat) (reason : WaiterEnd) (evt : Nat) (w : Waiter) : Waiter :=
  if w.state = .waiting ∧ w.feature = code then w.endedAs reason evt else w

theorem waiter_endFeatureWaiters (rising : TableRising s.waiters) (code : Nat) (reason : WaiterEnd) (evt k : Nat) :
    (s.endFeatureWaiters code reason evt).waiter k = (s.waiter k).endedWith code reason evt := by
  refine walk_look (look := State.waiter) (g := Waiter.endedWith code reason evt) rising (fun u e k other => ?_)
    (fun u e found => ?_) (fun e listed => tableGet_of_mem rising listed) fun absent => ?_
  · split
    · simp [endWaiter_eq, other]
    · rfl
  · unfold Waiter.endedWith
    split
    · simp [endWaiter_eq, found]
    · exact found
  · rw [State.waiter, tableGet_unlisted absent]
    rfl

/-- A deadline of the feature that lies past an instant, lowered to it (R17). -/
def Holding.lowered (code e : Nat) (h : Holding) : Holding :=
  if h.state.counted = true ∧ h.feature = code ∧ e < h.deadline then { h with deadline := e } else h

def Waiter.lowered (code e : Nat) (w : Waiter) : Waiter :=
  if w.state = .waiting ∧ w.feature = code ∧ e < w.deadline then { w with deadline := e } else w

/-- The lowering of the deadlines of a feature's counted holdings, one after another. -/
def State.lowerHoldings (s : State) (code e : Nat) : State :=
  s.holdings.foldl
    (fun acc x =>
      if x.2.state.counted ∧ x.2.feature = code ∧ e < x.2.deadline then acc.placeHolding x.1 { x.2 with deadline := e }
      else acc) s

theorem lowerHoldings_waiters (s : State) (code e : Nat) : (s.lowerHoldings code e).waiters = s.waiters :=
  placeHolding_foldl_waiters (fun u x => by split <;> simp) s.holdings s

theorem reclamp_eq (s : State) (code e : Nat) :
    s.reclamp code e =
      s.waiters.foldl
        (fun acc x =>
          if x.2.state = .waiting ∧ x.2.feature = code ∧ e < x.2.deadline then
            acc.placeWaiter x.1 { x.2 with deadline := e }
          else acc) (s.lowerHoldings code e) := by
  rw [← lowerHoldings_waiters s code e]
  rfl

theorem holding_reclamp (rising : TableRising s.holdings) (code e k : Nat) :
    (s.reclamp code e).holding k = (s.holding k).lowered code e := by
  have walked : ∀ (l : Table Waiter) (u : State), (l.foldl
      (fun acc x =>
        if x.2.state = .waiting ∧ x.2.feature = code ∧ e < x.2.deadline then
          acc.placeWaiter x.1 { x.2 with deadline := e }
        else acc) u).holding k = u.holding k := fun l u =>
    foldl_keeps (fun u => u.holding k) _ (fun u x => by split <;> simp) l u
  rw [reclamp_eq, walked]
  refine walk_look (look := State.holding) (g := Holding.lowered code e) rising (fun u x k other => ?_)
    (fun u x found => ?_) (fun x listed => tableGet_of_mem rising listed) fun absent => ?_
  · split
    · simp [other]
    · rfl
  · unfold Holding.lowered
    split
    · simp
    · exact found
  · rw [State.holding, tableGet_unlisted absent]
    rfl

theorem waiter_reclamp (rising : TableRising s.waiters) (code e k : Nat) :
    (s.reclamp code e).waiter k = (s.waiter k).lowered code e := by
  have same (j : Nat) : (s.lowerHoldings code e).waiter j = s.waiter j := by
    rw [State.waiter, lowerHoldings_waiters, State.waiter]
  rw [reclamp_eq, ← same k]
  refine walk_look (look := State.waiter) (g := Waiter.lowered code e) rising (fun u x k other => ?_)
    (fun u x found => ?_) (fun x listed => ?_) fun absent => ?_
  · split
    · simp [other]
    · rfl
  · unfold Waiter.lowered
    split
    · simp
    · exact found
  · rw [same]
    exact tableGet_of_mem rising listed
  · rw [same, State.waiter, tableGet_unlisted absent]
    rfl

/-! ### A feature that retires (R18) -/

theorem endWaiter_setFeature {u : State} {code : Nat} {g : Feature} (home : (u.featureOf code).pool = g.pool) (j : Nat)
    (reason : WaiterEnd) (evt : Nat) :
    (u.setFeature code g).endWaiter j reason evt = (u.endWaiter j reason evt).setFeature code g := by
  have pool : ((u.setFeature code g).featureOf (u.waiter j).feature).pool = (u.featureOf (u.waiter j).feature).pool := by
    rw [State.featureOf, feature_setFeature]
    split
    · rename_i same
      rw [same, home]
      rfl
    · rfl
  have waiter : (u.setFeature code g).waiter j = u.waiter j := rfl
  rw [endWaiter_eq, endWaiter_eq, waiter, pool]
  simp only [State.dequeue, placeWaiter_eq]
  rfl

/-- A change of a feature's state alone can come before or after the ending of its waiters. -/
theorem endFeatureWaiters_setFeature {code : Nat} {g : Feature} (home : (s.featureOf code).pool = g.pool)
    (reason : WaiterEnd) (evt : Nat) :
    (s.setFeature code g).endFeatureWaiters code reason evt =
      (s.endFeatureWaiters code reason evt).setFeature code g := by
  suffices walked : ∀ (l : Table Waiter) (u : State), (u.featureOf code).pool = g.pool →
      l.foldl (fun acc e => if e.2.state = .waiting ∧ e.2.feature = code then acc.endWaiter e.1 reason evt else acc)
        (u.setFeature code g) =
      (l.foldl (fun acc e => if e.2.state = .waiting ∧ e.2.feature = code then acc.endWaiter e.1 reason evt else acc)
        u).setFeature code g from walked s.waiters s home
  intro l
  induction l with
  | nil => exact fun _ _ => rfl
  | cons e l ih =>
    intro u home
    simp only [List.foldl_cons]
    split
    · rw [endWaiter_setFeature home]
      exact ih _ (by rwa [endWaiter_eq, featureOf_dequeue])
    · exact ih u home

theorem strokes_retire (tables : TablesOk s) {code : Nat} {f : Feature} (known : s.feature code = some f) :
    Strokes s (s.retire code f) := by
  have home : (s.featureOf code).pool = f.pool := by rw [State.featureOf, known]; rfl
  have unwaited : ¬Waited (s.endFeatureWaiters code .retired s.siteTime) code := by
    rintro ⟨j, waits, same⟩
    rw [waiter_endFeatureWaiters tables.waiters_canonical.1, Waiter.endedWith] at waits same
    split at waits
    · cases waits
    · rename_i other
      rw [if_neg other] at same
      exact other ⟨waits, same⟩
  have ended := strokes_endFeatureWaiters tables code .retired s.siteTime
  have kept : (s.endFeatureWaiters code .retired s.siteTime).feature code = some f :=
    (feature_of_shelves (shelves_endFeatureWaiters ..) code).trans known
  have written : Strokes s ((s.endFeatureWaiters code .retired s.siteTime).setFeature code { f with state := .retiring }) :=
    ended.tail (.rewrites ⟨kept, .inr unwaited, .inl ⟨rfl, rfl⟩, .inl rfl⟩)
  rw [State.retire, endFeatureWaiters_setFeature (g := { f with state := .retiring }) home]
  exact written.trans (strokes_drainReport ((tables.endFeatureWaiters ..).setFeature ..) code s.siteTime)

/-! ### Every act and consequence as strokes -/

theorem Handled.strokes {d : Deadline} (handled : Handled d s t) (tables : TablesOk s) : Strokes s t := by
  cases handled with
  | nothing _ => exact .refl
  | @holding x evt kind ends =>
    refine strokes_uncount tables evt ?_ ends
    cases state : (s.holding d.record).state with
    | free => simp [state, HoldingState.deadlineKind] at kind
    | lapsed => simp [state, HoldingState.deadlineKind] at kind
    | live => rfl
    | borrowed => rfl
    | lingering => rfl
  | @waiter reason evt _ waits =>
    rw [endWaiter_eq]
    exact strokes_dequeue (w := (s.waiter d.record).endedAs reason evt) waits nofun (.inl rfl) rfl
  | @feature f evt _ known =>
    have written : Strokes s (s.setFeature d.record { f with endLodged := false }) :=
      .single (.rewrites ⟨known, .inl rfl, .inl ⟨rfl, rfl⟩, .inl rfl⟩)
    exact written.trans (strokes_endFeatureWaiters (tables.setFeature ..) ..)

theorem strokes_grantPath (tables : TablesOk s) {f : Feature} {a : Asking} {path : Path} {cost i : Nat}
    (chosen : Chosen s f a path cost i) (evt : Nat) : Strokes s (s.grantPath f a path cost i evt) := by
  obtain ⟨known, byKey, -, entry⟩ := chosen
  obtain ⟨shared, separate⟩ := pathFollowsTheKeyIndex s f.sharing a tables
  have joins (k : Nat) (keyed : (s.holding k).feature = a.feature) : s.featureOf (s.holding k).feature = f := by
    rw [keyed, State.featureOf, known]
    rfl
  cases path with
  | fresh =>
    refine .one (.begins (f := f) ?_) ((SameRoll.placeHolding ..).trans (SameRoll.charge ..))
    refine ⟨?_, rfl, rfl, ?_, known, rfl, fun kind k state same => ?_, _, rfl⟩
    · rcases (allocationTakesFreeThenOldestLapsed s tables).1 i entry with ⟨inside, free, -⟩ | ⟨-, lapsed, -⟩
      · exact .inl ⟨inside, free⟩
      · exact .inr lapsed
    · show (if _ then _ else _) = _ ∨ (if _ then _ else _) = _
      split
      · exact .inr rfl
      · exact .inl rfl
    · obtain ⟨feature, user, project, host⟩ := same
      have other := (((shared kind).2.2.mp byKey) k ⟨feature.symm, user.symm, project.symm, fun notUser =>
        (host (by cases sharing : f.sharing <;> simp_all)).symm⟩)
      rcases state with live | lingers
      · exact other.1 live
      · exact other.2 lingers
  | merge k =>
    obtain rfl : k = i := Option.some.inj entry
    obtain ⟨live, feature, -⟩ : (s.holding k).state = .live ∧ (s.holding k).feature = a.feature ∧ True := by
      by_cases kind : f.sharing = .separate
      · exact absurd byKey ((separate kind).1 k)
      · obtain ⟨live, feature, -⟩ := (shared kind).1 k byKey
        exact ⟨live, feature, trivial⟩
    refine .one (.goesOn ?_) ((SameRoll.placeHolding ..).trans (SameRoll.chargeJoin ..))
    refine ⟨by rw [live]; rfl, by rw [live]; rfl, rfl, rfl, rfl, rfl, rfl, rfl, fun _ => ?_, fun _ => .inl live,
      .inr ⟨_, (congrArg (fun g => Feature.clamp g _) (joins k feature)).symm⟩⟩
    simp [Holding.refsOk, live]
  | reattach k =>
    obtain rfl : k = i := Option.some.inj entry
    obtain ⟨lingers, feature, -⟩ : (s.holding k).state = .lingering ∧ (s.holding k).feature = a.feature ∧ True := by
      by_cases kind : f.sharing = .separate
      · obtain ⟨lingers, ⟨feature, -⟩, -⟩ := (separate kind).2.1 k byKey
        exact ⟨lingers, feature, trivial⟩
      · obtain ⟨lingers, feature, -⟩ := (shared kind).2.1 k byKey
        exact ⟨lingers, feature, trivial⟩
    refine .one (.goesOn ?_)
      (((SameRoll.placeHolding ..).trans (SameRoll.unlinger ..)).trans (SameRoll.chargeJoin ..))
    exact ⟨by rw [lingers]; rfl, rfl, rfl, rfl, rfl, rfl, rfl, rfl, fun _ => Nat.le_refl 1, fun _ => .inr lingers,
      .inr ⟨_, (congrArg (fun g => Feature.clamp g _) (joins k feature)).symm⟩⟩

theorem waiter_grantPath (s : State) (f : Feature) (a : Asking) (path : Path) (cost i evt k : Nat) :
    (s.grantPath f a path cost i evt).waiter k = s.waiter k := by
  have joined (u : State) (h : Holding) : (u.chargeJoin h cost evt).waiter k = u.waiter k :=
    (SameRoll.chargeJoin u h cost evt).waiter_eq k
  cases path with
  | fresh => exact waiter_placeHolding ..
  | merge j => exact (joined ..).trans (waiter_placeHolding ..)
  | reattach j => exact (joined ..).trans (waiter_placeHolding ..)

theorem strokes_grantWaiter (tables : TablesOk s) {j : Nat} {f : Feature} {path : Path} {cost i : Nat}
    (grants : Grants s j f path cost i) (evt : Nat) : Strokes s (s.grantWaiter j f path cost i evt) := by
  have made := strokes_grantPath tables grants.chosen evt
  have same := waiter_grantPath s f (s.waiter j).asking path cost i evt j
  have home : f.pool = ((s.grantPath f (s.waiter j).asking path cost i evt).featureOf
      ((s.grantPath f (s.waiter j).asking path cost i evt).waiter j).feature).pool := by
    have known : s.feature (s.waiter j).feature = some f := grants.chosen.known
    rw [same, State.featureOf, feature_of_shelves (shelves_grantPath ..), known]
    rfl
  rw [grantWaiter_eq]
  exact made.trans (strokes_dequeue (w := Waiter.grantedAs _ path i _ evt) (same.symm ▸ grants.waits) nofun
    (.inl (by rw [same]; rfl)) home)

theorem Follows.strokes (follows : Follows s t) (tables : TablesOk s) : Strokes s t := by
  induction follows with
  | done s => exact .refl
  | @marks s t mark _ ih =>
    have marked : Strokes s { s with starved := mark } := .single (.aside ⟨rfl, rfl, rfl, fun _ => rfl⟩)
    exact marked.trans (ih (tables.of_ledger rfl))
  | grants evt grants _ ih => exact (strokes_grantWaiter tables grants evt).trans (ih (tables.grantWaiter ..))
  | @handles s u t d n _ handled _ ih =>
    have kept := tables.withDeadlines s.reached (s.atOnce.erase d) n
    have taken : Strokes s { s with atOnce := s.atOnce.erase d, choices := n } :=
      .single (.aside ⟨rfl, rfl, rfl, fun _ => rfl⟩)
    exact (taken.trans (handled.strokes kept)).trans (ih (handled.tables kept))

theorem rewrites_of_replaces (tables : TablesOk s) {code : Nat} {old new : Feature} (replaces : Replaces s code old new)
    {g : Feature} (same : g = { new with endLodged := g.endLodged })
    (clamped : new.endInstant = old.endInstant
      ∨ ∀ e, new.endInstant = some e →
          (∀ i, (s.holding i).state.counted = true → (s.holding i).feature = code → (s.holding i).deadline ≤ e)
          ∧ ∀ j, (s.waiter j).state = .waiting → (s.waiter j).feature = code → (s.waiter j).deadline ≤ e) :
    Rewrites s code old g := by
  rw [same]
  refine ⟨replaces.found, .inl (replaces.stays.trans replaces.active.symm), ?_, clamped⟩
  refine replaces.unmoved.imp id fun ⟨unheld, unwaited⟩ => ⟨?_, ?_⟩
  · rw [← featureHeld_iff tables.holdings_canonical.1, unheld]
    exact Bool.false_ne_true
  · rw [← featureWaited_iff tables.waiters_canonical.1, unwaited]
    exact Bool.false_ne_true

end Sys2Proof.Machine
end

section
/-! SUPPORT. Every stroke keeps the entries, their features, the queues, the merge keys and the clamp: the proofs of
O54, O56 and O57. -/

namespace Sys2Proof.Machine

open Sys2Proof.Claims

variable {c : Instr} {s t : State}

/-! ### Every act as strokes, or as an emptying -/

/-- Every entry is FREE and every queue empty; a generation is the first, or has stayed or advanced. -/
structure Blank (s t : State) : Prop where
  holding : ∀ i, (t.holding i).state = .free ∧ (t.holding i).refs = 0
  waiter : ∀ j, (t.waiter j).state = .free
  queue : ∀ p, (t.pool p).queue = []
  holding_gen : ∀ i, (t.holding i).gen = 1 ∨ (t.holding i).gen = (s.holding i).gen
    ∨ (t.holding i).gen = nextGen (s.holding i).gen
  waiter_gen : ∀ j, (t.waiter j).gen = 1 ∨ (t.waiter j).gen = (s.waiter j).gen
    ∨ (t.waiter j).gen = nextGen (s.waiter j).gen

theorem Blank.of_reset (low : Bool) : Blank s { s.toReset with resetLow := low } :=
  ⟨fun _ => ⟨rfl, rfl⟩, fun _ => rfl, fun _ => rfl, fun _ => .inl rfl, fun _ => .inl rfl⟩

theorem sameRoll_recomputeAll (s : State) (evt : Nat) : SameRoll s (s.recomputeAll evt) := by
  unfold State.recomputeAll
  suffices fold : ∀ (l : List Nat) (u : State), SameRoll u (l.foldl (fun acc p => acc.recomputeOver p evt) u) from
    fold _ _
  intro l
  induction l with
  | nil => exact SameRoll.refl
  | cons p l ih => exact fun u => (SameRoll.recomputeOver u p evt).trans (ih _)

theorem Blank.of_clearedOut (tables : TablesOk s) (references : ∀ i, (s.holding i).refsOk) : Blank s s.clearedOut := by
  have holding := clearedOut_holding s tables.holdings_canonical
  have waiter := clearedOut_waiter s tables.waiters_canonical
  refine ⟨fun i => ?_, clearedOut_waiter_state s, fun p => ?_, fun i => ?_, fun j => ?_⟩
  · rw [holding, Holding.cleared]
    split
    · rename_i free
      have refs := references i
      rw [Holding.refsOk, free] at refs
      exact ⟨free, refs⟩
    · exact ⟨rfl, rfl⟩
  · have pools : s.clearedOut.pools = s.emptiedOut.pools := (congrArg State.pools (clearedOut_eq s) :)
    have emptied : (s.emptied.pool p).queue = [] := by
      rw [pool_emptied s tables.pools_canonical]
      rfl
    have same : SameRoll s.emptied s.emptiedOut := by
      rw [State.emptiedOut]
      exact sameRoll_recomputeAll ..
    rw [State.pool, pools, ← State.pool, same.queue p, emptied]
  · rw [holding, Holding.cleared]
    split
    · exact .inr (.inl rfl)
    · exact .inr (.inr rfl)
  · rw [waiter, Waiter.cleared]
    split
    · exact .inr (.inl rfl)
    · exact .inr (.inr rfl)

theorem strokes_placeFeature {code : Nat} {g : Feature} (stroke : Stroke s (s.setFeature code g.lodged)) :
    Strokes s (s.placeFeature code g) := by
  rw [placeFeature_eq]
  exact .one stroke ⟨rfl, rfl, rfl, fun _ => rfl⟩

/-- After the lowering of a feature's deadlines none of them lies past its end instant (R17). -/
theorem strokes_reclamps (tables : TablesOk s) {code : Nat} {old new : Feature} (replaces : Replaces s code old new) :
    Strokes s ((s.reclamped code new).placeFeature code new) := by
  refine (strokes_reclamped tables code new).trans (strokes_placeFeature (.rewrites (f := old) ?_))
  have kept : ∀ k, ((s.reclamped code new).holding k).state = (s.holding k).state
      ∧ ((s.reclamped code new).holding k).feature = (s.holding k).feature := by
    intro k
    unfold State.reclamped
    split
    · rw [holding_reclamp tables.holdings_canonical.1, Holding.lowered]
      split <;> exact ⟨rfl, rfl⟩
    · exact ⟨rfl, rfl⟩
  have stood : ∀ k, ((s.reclamped code new).waiter k).state = (s.waiter k).state
      ∧ ((s.reclamped code new).waiter k).feature = (s.waiter k).feature := by
    intro k
    unfold State.reclamped
    split
    · rw [waiter_reclamp tables.waiters_canonical.1, Waiter.lowered]
      split <;> exact ⟨rfl, rfl⟩
    · exact ⟨rfl, rfl⟩
  refine ⟨(feature_reclamped ..).trans replaces.found, .inl (replaces.stays.trans replaces.active.symm),
    replaces.unmoved.imp id fun ⟨unheld, unwaited⟩ => ⟨?unheld, ?unwaited⟩,
    .inr fun e ending => ⟨fun i counted same => ?heldBefore, fun j waits same => ?waitsBefore⟩⟩
  case unheld =>
    rintro ⟨i, counted, same⟩
    rw [(kept i).1] at counted
    rw [(kept i).2] at same
    rw [(featureHeld_iff tables.holdings_canonical.1 code).mpr ⟨i, counted, same⟩] at unheld
    cases unheld
  case unwaited =>
    rintro ⟨j, waits, same⟩
    rw [(stood j).1] at waits
    rw [(stood j).2] at same
    rw [(featureWaited_iff tables.waiters_canonical.1 code).mpr ⟨j, waits, same⟩] at unwaited
    cases unwaited
  case heldBefore =>
    have lowered : s.reclamped code new = s.reclamp code e := by
      have ending : new.endInstant = some e := ending
      rw [State.reclamped, ending]
    rw [(kept i).1] at counted
    rw [(kept i).2] at same
    rw [lowered, holding_reclamp tables.holdings_canonical.1, Holding.lowered]
    split
    · exact Nat.le_refl e
    · rename_i low
      exact Nat.le_of_not_lt fun late => low ⟨counted, same, late⟩
  case waitsBefore =>
    have lowered : s.reclamped code new = s.reclamp code e := by
      have ending : new.endInstant = some e := ending
      rw [State.reclamped, ending]
    rw [(stood j).1] at waits
    rw [(stood j).2] at same
    rw [lowered, waiter_reclamp tables.waiters_canonical.1, Waiter.lowered]
    split
    · exact Nat.le_refl e
    · rename_i low
      exact Nat.le_of_not_lt fun late => low ⟨waits, same, late⟩

theorem Dealing.strokes (dealing : Dealing s t) (tables : TablesOk s) :
    Strokes s t ∨ (t = s.clearedOut ∧ s.service = .closed) := by
  cases dealing with
  | shuts => exact .inl (.aside ⟨rfl, rfl, rfl, fun _ => rfl⟩)
  | @takes d t _ handled =>
    have taken : Strokes s (s.taken d) := .aside ⟨rfl, rfl, rfl, fun _ => rfl⟩
    exact .inl (taken.trans (handled.strokes (tables.withDeadlines _ _ s.choices)))
  | unlists _ => exact .inl (.aside ⟨rfl, rfl, rfl, fun _ => rfl⟩)
  | unmarks p => exact .inl (.aside (SameRoll.setPool s p rfl))
  | @renews i live =>
    refine .inl (strokes_placeHolding_goesOn ⟨by rw [live]; rfl, ?_, rfl, rfl, rfl, rfl, rfl, rfl, id, id, .inr ⟨_, rfl⟩⟩)
    show (s.holding i).state.counted = true
    rw [live]
    rfl
  | @drops i live more =>
    refine .inl (.single (.goesOn ⟨by rw [live]; rfl, ?_, rfl, rfl, rfl, rfl, rfl, rfl, ?_, id, .inl (Nat.le_refl _)⟩))
    · show (s.holding i).state.counted = true
      rw [live]
      rfl
    · simp only [Holding.refsOk, live]
      omega
  | @lingers i n live =>
    refine .inl (.one (.goesOn (i := i) ?_) ((SameRoll.placeHolding ..).trans (SameRoll.setPool _ _ ?_)))
    · exact ⟨by rw [live]; rfl, rfl, rfl, rfl, rfl, rfl, rfl, rfl, fun _ => rfl, fun _ => .inl live, .inr ⟨_, rfl⟩⟩
    · rw [pool_placeHolding]
  | @converts i n live =>
    refine .inl (.one (.goesOn (i := i) ?_) ((SameRoll.placeHolding ..).trans (SameRoll.setPool _ _ ?_)))
    · exact ⟨by rw [live]; rfl, rfl, rfl, rfl, rfl, rfl, rfl, rfl, fun _ => rfl, fun _ => .inl live, .inr ⟨_, rfl⟩⟩
    · rw [pool_placeHolding]
  | ends evt counted ends => exact .inl (strokes_uncount tables evt counted ends)
  | @clears i lapsed =>
    have lapsed := lapsed tables.holdings_canonical.1
    exact .inl (.one (.leaves (by rw [lapsed]; nofun) (Holding.endsAs_free _)) (SameRoll.placeHolding ..))
  | @cancels j waits => exact .inl (strokes_dequeue (w := Waiter.freeEntry _) waits nofun (.inr rfl) rfl)
  | @frees j reported =>
    refine .inl (.one (.forgets ?_) (SameRoll.placeWaiter ..))
    rcases reported tables.waiters_canonical.1 with state | state <;> rw [state] <;> nofun
  | joins chosen _ _ => exact .inl (strokes_grantPath tables chosen _)
  | @queues f a j wait known active free =>
    obtain ⟨-, inside, isFree, -⟩ := lowestFrom_some free
    have queued := Stroke.waits (s := s) (f := f) (j := j) (w :=
      { Waiter.freeEntry (s.waiter j).gen with
        state := .waiting
        feature := a.feature
        user := a.user
        host := a.host
        project := a.project
        seats := a.seats
        cls := a.cls
        deadline := f.clamp (s.siteTime + wait) })
      (by simpa using inside) (beq_iff_eq.mp isFree) rfl rfl known active ⟨_, rfl⟩
    refine .inl (.one queued ?_)
    simp only [State.queueCheckout, State.joinQueue, State.joined, placeWaiter_eq]
    exact ⟨rfl, rfl, rfl, fun _ => rfl⟩
  | resizes p capacity borrowCap =>
    have resized : SameRoll s (s.setPool p { s.pool p with capacity := capacity, borrowCap := borrowCap }) :=
      SameRoll.setPool s p rfl
    exact .inl (.aside (resized.trans (SameRoll.recomputedIf ..)))
  | @reallots a reserve cap _ =>
    have changed : SameRoll s
        (s.changeAllotment a.project a.pool (fun x => { x with reserve := reserve, cap := cap })) :=
      ⟨rfl, rfl, rfl, fun _ => rfl⟩
    exact .inl (.aside (changed.trans (SameRoll.recomputedIf ..)))
  | @allots a _ _ _ =>
    have listed : SameRoll s { s with allotments := s.allotments ++ [a] } := ⟨rfl, rfl, rfl, fun _ => rfl⟩
    exact .inl (.aside (listed.trans (SameRoll.setPool _ _ rfl)))
  | unallots project pool =>
    have kept : SameRoll s { s with allotments := s.allotments.filter (fun x => !x.keyed project pool) } :=
      ⟨rfl, rfl, rfl, fun _ => rfl⟩
    exact .inl (.aside (kept.trans (SameRoll.recomputedIf ..)))
  | @creates code f absent _ active _ => exact .inl (strokes_placeFeature (.creates absent active))
  | @updates code old new replaces same =>
    have ending : new.endInstant = old.endInstant := by rw [Feature.endInstant, same, Feature.endInstant]
    exact .inl (.single (.rewrites (rewrites_of_replaces tables replaces rfl (.inl ending))))
  | reclamps replaces _ => exact .inl (strokes_reclamps tables replaces)
  | retires known _ => exact .inl (strokes_retire tables known)
  | empties closed => exact .inr ⟨rfl, closed⟩

/-! ### The entries (R64 to R66, R106) -/

theorem EntriesOk.of_roll (ok : EntriesOk s) (same : SameRoll s t) : EntriesOk t :=
  ⟨fun i => same.holding_eq i ▸ ok.1 i, fun j => same.waiter_eq j ▸ ok.2 j, fun i => same.holding_eq i ▸ ok.3 i,
    fun i => same.holding_eq i ▸ ok.4 i, fun j => same.waiter_eq j ▸ ok.5 j⟩

theorem nextGen_bounds (g : Nat) : 1 ≤ nextGen g ∧ nextGen g ≤ 255 := by
  unfold nextGen
  split <;> omega

theorem EntriesOk.setHolding (ok : EntriesOk s) {i : Nat} {h : Holding}
    (gen : h.gen = (s.holding i).gen ∨ h.gen = nextGen (s.holding i).gen) (refs : h.refsOk)
    (inside : 8192 ≤ i → h.state = .free) : EntriesOk (s.setHolding i h) := by
  refine ⟨fun k => ?_, ok.2, fun k => ?_, fun k beyond => ?_, ok.5⟩
  · rw [holding_setHolding]
    split
    · rcases gen with same | next
      · rw [same]
        exact ok.holding_gen i
      · rw [next]
        exact nextGen_bounds _
    · exact ok.holding_gen k
  · rw [holding_setHolding]
    split
    · exact refs
    · exact ok.references k
  · rw [holding_setHolding]
    split
    · rename_i same
      exact inside (same ▸ beyond)
    · exact ok.holdings_fit k beyond

theorem EntriesOk.setWaiter (ok : EntriesOk s) {j : Nat} {w : Waiter}
    (gen : w.gen = (s.waiter j).gen ∨ w.gen = nextGen (s.waiter j).gen) (inside : 256 ≤ j → w.state = .free) :
    EntriesOk (s.setWaiter j w) := by
  refine ⟨ok.1, fun k => ?_, ok.3, ok.4, fun k beyond => ?_⟩
  · rw [waiter_setWaiter]
    split
    · rcases gen with same | next
      · rw [same]
        exact ok.waiter_gen j
      · rw [next]
        exact nextGen_bounds _
    · exact ok.waiter_gen k
  · rw [waiter_setWaiter]
    split
    · rename_i same
      exact inside (same ▸ beyond)
    · exact ok.waiters_fit k beyond

theorem Holding.EndsAs.refsOk {h x : Holding} (ends : h.EndsAs x) : x.refsOk := by
  rcases ends.state with state | state <;> simp [Holding.refsOk, state, ends.refs]

theorem Stroke.entries (stroke : Stroke s t) (ok : EntriesOk s) : EntriesOk t := by
  have taken {i : Nat} (used : (s.holding i).state ≠ .free) (beyond : 8192 ≤ i) : False :=
    used (ok.holdings_fit i beyond)
  have waits {j : Nat} (used : (s.waiter j).state ≠ .free) (beyond : 256 ≤ j) : False :=
    used (ok.waiters_fit j beyond)
  cases stroke with
  | aside same => exact ok.of_roll same
  | leaves used ends => exact ok.setHolding ends.gen ends.refsOk fun beyond => (taken used beyond).elim
  | @goesOn i h goes =>
    refine ok.setHolding (.inl goes.gen) (goes.refs (ok.references i)) fun beyond => (taken (i := i) ?_ beyond).elim
    intro free
    have counted := goes.counted
    rw [free] at counted
    cases counted
  | @begins f i h new =>
    refine ok.setHolding new.gen (by simp [Holding.refsOk, new.live, new.refs]) fun beyond => ?_
    rcases new.vacant with ⟨inside, -⟩ | lapsed
    · omega
    · exact (taken (i := i) (by rw [lapsed]; nofun) beyond).elim
  | @hastens j e _ => exact ok.setWaiter (.inl rfl) fun beyond => ok.waiters_fit j beyond
  | @departs j w was _ gen =>
    have left : EntriesOk (s.leaveQueue (s.featureOf (s.waiter j).feature).pool j) := ⟨ok.1, ok.2, ok.3, ok.4, ok.5⟩
    exact left.setWaiter gen fun beyond => (waits (j := j) (by rw [was]; nofun) beyond).elim
  | forgets _ => exact ok.setWaiter (.inr rfl) fun _ => rfl
  | @waits f j w inside _ _ gen _ _ _ =>
    have written : EntriesOk (s.setWaiter j w) := ok.setWaiter (.inl gen) fun beyond => absurd inside (Nat.not_lt.mpr beyond)
    exact ⟨written.1, written.2, written.3, written.4, written.5⟩
  | drains _ _ _ _ => exact ⟨ok.1, ok.2, ok.3, ok.4, ok.5⟩
  | rewrites _ => exact ⟨ok.1, ok.2, ok.3, ok.4, ok.5⟩
  | creates _ _ => exact ⟨ok.1, ok.2, ok.3, ok.4, ok.5⟩

theorem Blank.entries (blank : Blank s t) (ok : EntriesOk s) : EntriesOk t := by
  refine ⟨fun i => ?_, fun j => ?_, fun i => ?_, fun i _ => (blank.holding i).1, fun j _ => blank.waiter j⟩
  · rcases blank.holding_gen i with first | same | next
    · rw [first]
      omega
    · rw [same]
      exact ok.holding_gen i
    · rw [next]
      exact nextGen_bounds _
  · rcases blank.waiter_gen j with first | same | next
    · rw [first]
      omega
    · rw [same]
      exact ok.waiter_gen j
    · rw [next]
      exact nextGen_bounds _
  · obtain ⟨free, refs⟩ := blank.holding i
    simp [Holding.refsOk, free, refs]

/-! ### The features of holdings (R16, R20, R95) -/

/-- Counted holdings of before, of features whose pools have stayed. -/
theorem FeaturesHeld.of_counted (held : FeaturesHeld s)
    (counted : ∀ i, (t.holding i).state.counted = true →
      (s.holding i).state.counted = true ∧ (t.holding i).feature = (s.holding i).feature
        ∧ (t.holding i).pool = (s.holding i).pool)
    (kept : ∀ code f, Held s code → s.feature code = some f → ∃ g, t.feature code = some g ∧ g.pool = f.pool) :
    FeaturesHeld t := by
  intro i isCounted
  obtain ⟨was, feature, pool⟩ := counted i isCounted
  obtain ⟨f, known, inPool⟩ := held i was
  obtain ⟨g, found, same⟩ := kept _ f ⟨i, was, rfl⟩ known
  exact ⟨g, by rw [feature, found], by rw [pool, inPool, same]⟩

theorem FeaturesHeld.setHolding (held : FeaturesHeld s) {i : Nat} {h : Holding}
    (known : h.state.counted = true → ∃ f, s.feature h.feature = some f ∧ h.pool = f.pool) :
    FeaturesHeld (s.setHolding i h) := by
  intro k
  rw [holding_setHolding]
  split
  · exact known
  · exact held k

theorem Stroke.featuresHeld (stroke : Stroke s t) (held : FeaturesHeld s) : FeaturesHeld t := by
  have unmoved {u : State} (same : ∀ i, u.holding i = s.holding i)
      (kept : ∀ code f, Held s code → s.feature code = some f → ∃ g, u.feature code = some g ∧ g.pool = f.pool) :
      FeaturesHeld u :=
    held.of_counted (fun i counted => by rw [same] at counted ⊢; exact ⟨counted, rfl, rfl⟩) kept
  cases stroke with
  | aside same => exact unmoved same.holding_eq fun code f _ known => ⟨f, (same.feature_eq code).trans known, rfl⟩
  | leaves _ ends => exact held.setHolding fun counted => absurd counted (by rw [ends.uncounted]; nofun)
  | @goesOn i h goes =>
    refine held.setHolding fun _ => ?_
    rw [goes.feature, goes.pool]
    exact held i goes.counted
  | begins new => exact held.setHolding fun _ => ⟨_, new.known, new.pool⟩
  | hastens _ => exact held
  | departs _ _ _ => exact held
  | forgets _ => exact held
  | waits _ _ _ _ _ _ _ => exact held
  | @drains code f evt _ _ unheld =>
    refine unmoved (fun _ => rfl) fun k g isHeld known => ⟨g, ?_, rfl⟩
    rw [feature_drain, if_neg, known]
    rintro rfl
    exact unheld isHeld
  | @rewrites code f g rewrites =>
    refine unmoved (fun _ => rfl) fun k r isHeld known => ?_
    rw [feature_setFeature]
    split
    · rename_i same
      subst same
      obtain rfl : f = r := Option.some.inj (rewrites.known.symm.trans known)
      rcases rewrites.unmoved with ⟨pool, -⟩ | ⟨unheld, -⟩
      · exact ⟨g, rfl, pool⟩
      · exact absurd isHeld unheld
    · exact ⟨r, known, rfl⟩
  | @creates code g absent _ =>
    refine unmoved (fun _ => rfl) fun k r _ known => ⟨r, ?_, rfl⟩
    rw [feature_setFeature, if_neg, known]
    rintro rfl
    cases absent.symm.trans known

theorem Blank.featuresHeld (blank : Blank s t) : FeaturesHeld t := by
  intro i counted
  rw [(blank.holding i).1] at counted
  cases counted

/-! ### The queues (R109, R110, R18) -/

/-- The waiters' states, features and classes and the queues as before, and the ACTIVE features of WAITING waiters in
their pools. -/
theorem QueuesOk.of_same (ok : QueuesOk s) (queue : ∀ p, (t.pool p).queue = (s.pool p).queue)
    (waiter : ∀ j, (t.waiter j).state = (s.waiter j).state ∧ (t.waiter j).feature = (s.waiter j).feature
      ∧ (t.waiter j).cls = (s.waiter j).cls)
    (kept : ∀ code f, Waited s code → s.feature code = some f → f.state = .active →
      ∃ g, t.feature code = some g ∧ g.state = .active ∧ g.pool = f.pool) : QueuesOk t := by
  refine ⟨fun p j queued => ?_, fun j waits => ?_, fun p => ?_, fun p => ?_⟩
  · rw [queue] at queued
    rw [(waiter j).1]
    exact ok.queued_waits p j queued
  · rw [(waiter j).1] at waits
    obtain ⟨f, known, active, home⟩ := ok.waiting_queued j waits
    obtain ⟨g, found, activeStill, pool⟩ := kept _ f ⟨j, waits, rfl⟩ known active
    exact ⟨g, by rw [(waiter j).2.1, found], activeStill, fun p => by rw [queue, pool, home]⟩
  · rw [queue]
    exact ok.once p
  · rw [queue]
    exact (ok.by_class p).imp fun {j k} falls => by rwa [(waiter j).2.2, (waiter k).2.2]

/-- A waiter that does not wait is in no queue. -/
theorem QueuesOk.not_queued (ok : QueuesOk s) {j : Nat} (idle : (s.waiter j).state ≠ .waiting) (p : Nat) :
    j ∉ (s.pool p).queue := fun queued => idle (ok.queued_waits p j queued)

/-- A waiter that waits in no queue but that of its feature's pool leaves it. -/
theorem QueuesOk.leave (ok : QueuesOk s) {j : Nat} {w : Waiter} (waits : (s.waiter j).state = .waiting)
    (gone : w.state ≠ .waiting) :
    QueuesOk ((s.leaveQueue (s.featureOf (s.waiter j).feature).pool j).setWaiter j w) := by
  obtain ⟨f, known, -, home⟩ := ok.waiting_queued j waits
  have pool : (s.featureOf (s.waiter j).feature).pool = f.pool := by rw [State.featureOf, known]; rfl
  rw [pool]
  have queue (p : Nat) :
      (((s.leaveQueue f.pool j).setWaiter j w).pool p).queue = (s.pool p).queue.filter (fun k => k != j) := by
    rw [pool_setWaiter, pool_leaveQueue]
    split
    · rename_i same
      rw [same]
    · rename_i other
      refine (List.filter_eq_self.mpr fun k queued => ?_).symm
      rw [bne_iff_ne]
      rintro rfl
      exact other ((home p).mp queued)
  have others (p k : Nat) : k ∈ (((s.leaveQueue f.pool j).setWaiter j w).pool p).queue ↔
      k ∈ (s.pool p).queue ∧ k ≠ j := by rw [queue, List.mem_filter, bne_iff_ne]
  have waiter (k : Nat) (other : k ≠ j) : ((s.leaveQueue f.pool j).setWaiter j w).waiter k = s.waiter k := by
    rw [waiter_setWaiter, if_neg other]
    rfl
  refine ⟨fun p k queued => ?_, fun k waits => ?_, fun p => ?_, fun p => ?_⟩
  · obtain ⟨queued, other⟩ := (others p k).mp queued
    rw [waiter k other]
    exact ok.queued_waits p k queued
  · by_cases same : k = j
    · subst same
      rw [waiter_setWaiter, if_pos rfl] at waits
      exact absurd waits gone
    · rw [waiter k same] at waits ⊢
      obtain ⟨g, found, active, place⟩ := ok.waiting_queued k waits
      exact ⟨g, found, active, fun p => by rw [others, and_iff_left same, place]⟩
  · rw [queue]
    exact (ok.once p).filter _
  · rw [queue]
    refine List.Pairwise.imp_of_mem (fun {a b} inA inB falls => ?_) ((ok.by_class p).filter _)
    rwa [waiter a (by simpa using (List.mem_filter.mp inA).2), waiter b (by simpa using (List.mem_filter.mp inB).2)]

/-- The queue that a waiter of a class joins: each of those before it has its class or one above, each of those behind
it has one below (R110). -/
theorem pairwise_joined {queue : List Nat} {cls : Nat → Nat} (falls : queue.Pairwise (fun j k => cls k ≤ cls j))
    (j : Nat) :
    (queue.takeWhile (fun k => decide (cls j ≤ cls k)) ++ j :: queue.dropWhile (fun k => decide (cls j ≤ cls k))).Pairwise
      (fun j k => cls k ≤ cls j) := by
  induction queue with
  | nil => exact List.pairwise_singleton _ _
  | cons k rest ih =>
    obtain ⟨first, falls⟩ := List.pairwise_cons.mp falls
    by_cases ahead : cls j ≤ cls k
    · rw [List.takeWhile_cons_of_pos (by simpa using ahead), List.dropWhile_cons_of_pos (by simpa using ahead),
        List.cons_append]
      refine List.pairwise_cons.mpr ⟨fun m inside => ?_, ih falls⟩
      rcases List.mem_append.mp inside with before | behind
      · exact first m (List.takeWhile_subset _ before)
      · rcases List.mem_cons.mp behind with rfl | behind
        · exact ahead
        · exact first m ((List.dropWhile_suffix _).subset behind)
    · rw [List.takeWhile_cons_of_neg (by simpa using ahead), List.dropWhile_cons_of_neg (by simpa using ahead),
        List.nil_append]
      refine List.pairwise_cons.mpr ⟨fun m inside => ?_, List.pairwise_cons.mpr ⟨first, falls⟩⟩
      rcases List.mem_cons.mp inside with rfl | inside
      · omega
      · have := first m inside
        omega

theorem mem_joined (s : State) (queue : List Nat) (j cls k : Nat) : k ∈ s.joined queue j cls ↔ k = j ∨ k ∈ queue := by
  have parts := List.takeWhile_append_dropWhile (p := fun k => decide (cls ≤ (s.waiter k).cls)) (l := queue)
  rw [State.joined, List.mem_append, List.mem_cons, or_left_comm, ← List.mem_append, parts]

theorem nodup_joined (s : State) {queue : List Nat} {j : Nat} (cls : Nat) (once : queue.Nodup) (fresh : j ∉ queue) :
    (s.joined queue j cls).Nodup := by
  have parts := List.takeWhile_append_dropWhile (p := fun k => decide (cls ≤ (s.waiter k).cls)) (l := queue)
  rw [State.joined, List.nodup_middle, parts]
  exact List.nodup_cons.mpr ⟨fresh, once⟩

/-- A waiter that did not wait joins the queue of its feature's pool. -/
theorem QueuesOk.join (ok : QueuesOk s) {f : Feature} {j : Nat} {w : Waiter} (idle : (s.waiter j).state ≠ .waiting)
    (waits : w.state = .waiting) (known : s.feature w.feature = some f) (active : f.state = .active) :
    QueuesOk ((s.setWaiter j w).joinQueue f.pool j w.cls) := by
  have absent := ok.not_queued idle
  have waiter (k : Nat) (other : k ≠ j) : ((s.setWaiter j w).joinQueue f.pool j w.cls).waiter k = s.waiter k := by
    rw [waiter_joinQueue, waiter_setWaiter, if_neg other]
  have own : ((s.setWaiter j w).joinQueue f.pool j w.cls).waiter j = w := by
    rw [waiter_joinQueue, waiter_setWaiter, if_pos rfl]
  have queue (p : Nat) : (((s.setWaiter j w).joinQueue f.pool j w.cls).pool p).queue =
      if p = f.pool then (s.setWaiter j w).joined (s.pool p).queue j w.cls else (s.pool p).queue := by
    rw [pool_joinQueue]
    split
    · rename_i same
      rw [same]
      rfl
    · rfl
  have others (p k : Nat) : k ∈ (((s.setWaiter j w).joinQueue f.pool j w.cls).pool p).queue ↔
      (k = j ∧ p = f.pool) ∨ k ∈ (s.pool p).queue := by
    rw [queue]
    split
    · rename_i same
      rw [mem_joined, and_iff_left same]
    · rename_i other
      simp [other]
  refine ⟨fun p k queued => ?_, fun k isWaiting => ?_, fun p => ?_, fun p => ?_⟩
  · rcases (others p k).mp queued with ⟨rfl, -⟩ | queued
    · rw [own, waits]
    · have other : k ≠ j := fun same => absent p (same ▸ queued)
      rw [waiter k other]
      exact ok.queued_waits p k queued
  · by_cases same : k = j
    · subst same
      rw [own]
      exact ⟨f, known, active, fun p => by rw [others]; simp [absent p]⟩
    · rw [waiter k same] at isWaiting ⊢
      obtain ⟨g, found, activeStill, home⟩ := ok.waiting_queued k isWaiting
      exact ⟨g, found, activeStill, fun p => by rw [others, ← home]; simp [same]⟩
  · rw [queue]
    split
    · exact nodup_joined _ _ (ok.once p) (absent p)
    · exact ok.once p
  · have falls : (s.pool p).queue.Pairwise
        (fun a b => (((s.setWaiter j w).joinQueue f.pool j w.cls).waiter b).cls ≤
          (((s.setWaiter j w).joinQueue f.pool j w.cls).waiter a).cls) := by
      refine List.Pairwise.imp_of_mem (fun {a b} inA inB falls => ?_) (ok.by_class p)
      rwa [waiter a fun same => absent p (same ▸ inA), waiter b fun same => absent p (same ▸ inB)]
    rw [queue]
    split
    · have joined := pairwise_joined falls j
      rw [own] at joined
      exact joined
    · exact falls

theorem Stroke.queues (stroke : Stroke s t) (ok : QueuesOk s) : QueuesOk t := by
  have unmoved {u : State} (queue : ∀ p, (u.pool p).queue = (s.pool p).queue) (waiter : ∀ j, u.waiter j = s.waiter j)
      (kept : ∀ code f, Waited s code → s.feature code = some f → f.state = .active →
        ∃ g, u.feature code = some g ∧ g.state = .active ∧ g.pool = f.pool) : QueuesOk u :=
    ok.of_same queue (fun j => by rw [waiter]; exact ⟨rfl, rfl, rfl⟩) kept
  have featured {u : State} (queue : ∀ p, (u.pool p).queue = (s.pool p).queue) (waiter : ∀ j, u.waiter j = s.waiter j)
      (feature : ∀ code, u.feature code = s.feature code) : QueuesOk u :=
    unmoved queue waiter fun code f _ known active => ⟨f, (feature code).trans known, active, rfl⟩
  cases stroke with
  | aside same => exact featured same.queue same.waiter_eq same.feature_eq
  | leaves _ _ => exact featured (fun _ => rfl) (fun _ => rfl) fun _ => rfl
  | goesOn _ => exact featured (fun _ => rfl) (fun _ => rfl) fun _ => rfl
  | begins _ => exact featured (fun _ => rfl) (fun _ => rfl) fun _ => rfl
  | @hastens j e _ =>
    refine ok.of_same (fun _ => rfl) (fun k => ?_) fun code f _ known active => ⟨f, known, active, rfl⟩
    rw [waiter_setWaiter]
    split
    · rename_i same
      rw [same]
      exact ⟨rfl, rfl, rfl⟩
    · exact ⟨rfl, rfl, rfl⟩
  | departs waits gone _ => exact ok.leave waits gone
  | @forgets j idle =>
    have absent := ok.not_queued idle
    have waiter (k : Nat) (other : k ≠ j) :
        (s.setWaiter j (Waiter.freeEntry (nextGen (s.waiter j).gen))).waiter k = s.waiter k := by
      rw [waiter_setWaiter, if_neg other]
    refine ⟨fun p k queued => ?_, fun k waits => ?_, ok.once, fun p => ?_⟩
    · rw [waiter k fun same => absent p (same ▸ queued)]
      exact ok.queued_waits p k queued
    · have other : k ≠ j := by
        rintro rfl
        rw [waiter_setWaiter, if_pos rfl] at waits
        cases waits
      rw [waiter k other] at waits ⊢
      exact ok.waiting_queued k waits
    · refine List.Pairwise.imp_of_mem (fun {a b} inA inB falls => ?_) (ok.by_class p)
      rwa [waiter a fun same => absent p (same ▸ inA), waiter b fun same => absent p (same ▸ inB)]
  | waits _ free waits _ known active _ => exact ok.join (by rw [free]; nofun) waits known active
  | @drains code f evt known retiring _ =>
    refine unmoved (fun _ => rfl) (fun _ => rfl) fun k g _ found active => ⟨g, ?_, active, rfl⟩
    rw [feature_drain, if_neg, found]
    rintro rfl
    obtain rfl : f = g := Option.some.inj (known.symm.trans found)
    cases retiring.symm.trans active
  | @rewrites code f g rewrites =>
    refine unmoved (fun _ => rfl) (fun _ => rfl) fun k r waited found active => ?_
    rw [feature_setFeature]
    split
    · rename_i same
      subst same
      obtain rfl : f = r := Option.some.inj (rewrites.known.symm.trans found)
      have state := rewrites.state.resolve_right (not_not.mpr waited)
      rcases rewrites.unmoved with ⟨pool, -⟩ | ⟨-, unwaited⟩
      · exact ⟨g, rfl, state.trans active, pool⟩
      · exact absurd waited unwaited
    · exact ⟨r, found, active, rfl⟩
  | @creates code g absent _ =>
    refine unmoved (fun _ => rfl) (fun _ => rfl) fun k r _ found active => ⟨r, ?_, active, rfl⟩
    rw [feature_setFeature, if_neg, found]
    rintro rfl
    cases absent.symm.trans found

theorem Blank.queues (blank : Blank s t) : QueuesOk t := by
  refine ⟨fun p j queued => ?_, fun j waits => ?_, fun p => ?_, fun p => ?_⟩
  · rw [blank.queue] at queued
    cases queued
  · rw [blank.waiter] at waits
    cases waits
  · rw [blank.queue]
    exact .nil
  · rw [blank.queue]
    exact .nil

/-! ### The merge keys (R68) -/

/-- Keyed holdings of before, under the keys of before, of features whose sharing kinds have stayed. -/
theorem KeysOk.of_keyed (ok : KeysOk s)
    (keyed : ∀ i, (t.holding i).state = .live ∨ (t.holding i).state = .lingering →
      ((s.holding i).state = .live ∨ (s.holding i).state = .lingering)
        ∧ (t.holding i).feature = (s.holding i).feature ∧ (t.holding i).user = (s.holding i).user
        ∧ (t.holding i).host = (s.holding i).host ∧ (t.holding i).project = (s.holding i).project)
    (kept : ∀ code g, Held s code → t.feature code = some g → ∃ f, s.feature code = some f ∧ g.sharing = f.sharing) :
    KeysOk t := by
  intro i j g found kind first second same
  obtain ⟨wasFirst, featureI, userI, hostI, projectI⟩ := keyed i first
  obtain ⟨wasSecond, featureJ, userJ, hostJ, projectJ⟩ := keyed j second
  rw [featureI] at found
  have counted : (s.holding i).state.counted = true := by rcases wasFirst with state | state <;> rw [state] <;> rfl
  obtain ⟨f, known, sharing⟩ := kept _ g ⟨i, counted, rfl⟩ found
  refine ok i j f known (sharing ▸ kind) wasFirst wasSecond ?_
  rwa [sameMergeKey, featureI, featureJ, userI, userJ, hostI, hostJ, projectI, projectJ, sharing] at same

theorem sameMergeKey_symm {sharing : Sharing} {a b : Holding} (same : sameMergeKey sharing a b) :
    sameMergeKey sharing b a := by
  obtain ⟨feature, user, project, host⟩ := same
  exact ⟨feature.symm, user.symm, project.symm, fun station => (host station).symm⟩

theorem Stroke.keys (stroke : Stroke s t) (held : FeaturesHeld s) (ok : KeysOk s) : KeysOk t := by
  have unmoved {u : State} (same : ∀ i, u.holding i = s.holding i)
      (kept : ∀ code g, Held s code → u.feature code = some g → ∃ f, s.feature code = some f ∧ g.sharing = f.sharing) :
      KeysOk u :=
    ok.of_keyed (fun i state => by rw [same] at state ⊢; exact ⟨state, rfl, rfl, rfl, rfl⟩) kept
  have written {i : Nat} {h : Holding} (keyed : h.state = .live ∨ h.state = .lingering →
      ((s.holding i).state = .live ∨ (s.holding i).state = .lingering) ∧ h.feature = (s.holding i).feature
        ∧ h.user = (s.holding i).user ∧ h.host = (s.holding i).host ∧ h.project = (s.holding i).project) :
      KeysOk (s.setHolding i h) := by
    refine ok.of_keyed (fun k state => ?_) fun code g _ found => ⟨g, found, rfl⟩
    rw [holding_setHolding] at state ⊢
    split at state
    · rename_i same
      subst same
      rw [if_pos rfl]
      exact keyed state
    · rename_i other
      rw [if_neg other]
      exact ⟨state, rfl, rfl, rfl, rfl⟩
  cases stroke with
  | aside same => exact unmoved same.holding_eq fun code g _ found => ⟨g, (same.feature_eq code).symm.trans found, rfl⟩
  | leaves _ ends =>
    refine written fun keyed => ?_
    have uncounted := ends.uncounted
    rcases keyed with state | state <;> rw [state] at uncounted <;> cases uncounted
  | goesOn goes => exact written fun keyed => ⟨goes.keyed keyed, goes.feature, goes.user, goes.host, goes.project⟩
  | @begins f i h new =>
    intro k m g found kind first second same
    rw [holding_setHolding] at found first same
    rw [holding_setHolding] at second same
    change s.feature _ = some g at found
    have clash (n : Nat) (state : (s.holding n).state = .live ∨ (s.holding n).state = .lingering)
        (known : s.feature h.feature = some g) (key : sameMergeKey g.sharing h (s.holding n)) : False := by
      obtain rfl : f = g := Option.some.inj (new.known.symm.trans known)
      exact new.fresh kind n state key
    by_cases isK : k = i <;> by_cases isM : m = i
    · rw [isK, isM]
    · rw [if_pos isK] at found
      rw [if_pos isK, if_neg isM] at same
      rw [if_neg isM] at second
      exact (clash m second found same).elim
    · rw [if_neg isK] at found first
      rw [if_neg isK, if_pos isM] at same
      refine (clash k first ?_ (sameMergeKey_symm same)).elim
      rw [← same.1, found]
    · rw [if_neg isK] at found first
      rw [if_neg isK, if_neg isM] at same
      rw [if_neg isM] at second
      exact ok k m g found kind first second same
  | hastens _ => exact ok
  | departs _ _ _ => exact ok
  | forgets _ => exact ok
  | waits _ _ _ _ _ _ _ => exact ok
  | @drains code f evt _ _ _ =>
    refine unmoved (fun _ => rfl) fun k g _ found => ⟨g, ?_, rfl⟩
    rw [feature_drain] at found
    split at found
    · cases found
    · exact found
  | @rewrites code f g rewrites =>
    refine unmoved (fun _ => rfl) fun k r isHeld found => ?_
    rw [feature_setFeature] at found
    split at found
    · rename_i same
      subst same
      cases found
      rcases rewrites.unmoved with ⟨-, sharing⟩ | ⟨unheld, -⟩
      · exact ⟨f, rewrites.known, sharing⟩
      · exact absurd isHeld unheld
    · exact ⟨r, found, rfl⟩
  | @creates code g absent _ =>
    refine unmoved (fun _ => rfl) fun k r isHeld found => ?_
    rw [feature_setFeature] at found
    split at found
    · rename_i same
      subst same
      obtain ⟨i, counted, feature⟩ := isHeld
      obtain ⟨f, known, -⟩ := held i counted
      rw [feature, absent] at known
      cases known
    · exact ⟨r, found, rfl⟩

theorem Blank.keys (blank : Blank s t) : KeysOk t := by
  intro i j f _ _ state
  rw [(blank.holding i).1] at state
  rcases state with state | state <;> cases state

/-! ### The clamp (R134) -/

/-- A deadline lies within the clamp of a feature code: not past the top of site time, nor past the end instant. -/
def Within (s : State) (code deadline : Nat) : Prop :=
  deadline ≤ 4294967295 ∧ ∀ f e, s.feature code = some f → f.endInstant = some e → deadline ≤ e

theorem ClampOk.iff_within :
    ClampOk s ↔ (∀ i, (s.holding i).state.counted = true → Within s (s.holding i).feature (s.holding i).deadline)
      ∧ ∀ j, (s.waiter j).state = .waiting → Within s (s.waiter j).feature (s.waiter j).deadline :=
  ⟨fun ok => ⟨ok.holdings, ok.waiters⟩, fun ok => ⟨ok.1, ok.2⟩⟩

theorem within_clamp {code : Nat} {f : Feature} (known : s.feature code = some f) (n : Nat) :
    Within s code (f.clamp n) := by
  obtain ⟨-, top, ending⟩ := clamp_le f n
  refine ⟨top, fun g e found ends => ?_⟩
  obtain rfl : f = g := Option.some.inj (known.symm.trans found)
  exact ending e ends

theorem Within.mono {code d e : Nat} (within : Within s code e) (below : d ≤ e) : Within s code d :=
  ⟨below.trans within.1, fun f x found ends => below.trans (within.2 f x found ends)⟩

theorem Within.of_feature {code d : Nat} (within : Within s code d)
    (kept : ∀ g e, t.feature code = some g → g.endInstant = some e →
      d ≤ e ∨ ∃ f, s.feature code = some f ∧ f.endInstant = some e) : Within t code d := by
  refine ⟨within.1, fun g e found ends => ?_⟩
  rcases kept g e found ends with below | ⟨f, known, ending⟩
  · exact below
  · exact within.2 f e known ending

theorem Stroke.clamped (stroke : Stroke s t) (held : FeaturesHeld s) (queues : QueuesOk s) (ok : ClampOk s) :
    ClampOk t := by
  obtain ⟨holdings, waiters⟩ := ClampOk.iff_within.mp ok
  have written {i : Nat} {h : Holding} (within : h.state.counted = true → Within s h.feature h.deadline) :
      ClampOk (s.setHolding i h) := by
    refine ClampOk.iff_within.mpr ⟨fun k => ?_, waiters⟩
    rw [holding_setHolding]
    split
    · exact within
    · exact holdings k
  have entered {u : State} {j : Nat} {w : Waiter} (same : ∀ i, u.holding i = s.holding i)
      (waiter : ∀ k, u.waiter k = if k = j then w else s.waiter k) (feature : ∀ code, u.feature code = s.feature code)
      (within : w.state = .waiting → Within s w.feature w.deadline) : ClampOk u := by
    have moved {code d : Nat} (within : Within s code d) : Within u code d :=
      within.of_feature fun g e found ends => .inr ⟨g, feature code ▸ found, ends⟩
    refine ClampOk.iff_within.mpr ⟨fun i counted => ?_, fun k => ?_⟩
    · rw [same] at counted ⊢
      exact moved (holdings i counted)
    · rw [waiter]
      split
      · exact fun waits => moved (within waits)
      · exact fun waits => moved (waiters k waits)
  have redefined {u : State} (same : ∀ i, u.holding i = s.holding i) (waiter : ∀ j, u.waiter j = s.waiter j)
      (kept : ∀ code d g e, u.feature code = some g → g.endInstant = some e →
        ((∃ i, (s.holding i).state.counted = true ∧ (s.holding i).feature = code ∧ (s.holding i).deadline = d)
          ∨ ∃ j, (s.waiter j).state = .waiting ∧ (s.waiter j).feature = code ∧ (s.waiter j).deadline = d) →
        d ≤ e ∨ ∃ f, s.feature code = some f ∧ f.endInstant = some e) : ClampOk u := by
    refine ClampOk.iff_within.mpr ⟨fun i counted => ?_, fun j waits => ?_⟩
    · rw [same] at counted ⊢
      exact (holdings i counted).of_feature fun g e found ends => kept _ _ g e found ends (.inl ⟨i, counted, rfl, rfl⟩)
    · rw [waiter] at waits ⊢
      exact (waiters j waits).of_feature fun g e found ends => kept _ _ g e found ends (.inr ⟨j, waits, rfl, rfl⟩)
  cases stroke with
  | aside same =>
    exact redefined same.holding_eq same.waiter_eq fun code d g e found ends _ =>
      .inr ⟨g, (same.feature_eq code).symm.trans found, ends⟩
  | leaves _ ends => exact written fun counted => absurd counted (by rw [ends.uncounted]; nofun)
  | @goesOn i h goes =>
    refine written fun _ => ?_
    rcases goes.clamped with below | ⟨n, clamped⟩
    · rw [goes.feature]
      exact (holdings i goes.counted).mono below
    · obtain ⟨f, known, -⟩ := held i goes.counted
      rw [clamped, goes.feature, State.featureOf, known]
      exact within_clamp known n
  | begins new =>
    obtain ⟨n, clamped⟩ := new.clamped
    exact written fun _ => clamped ▸ within_clamp new.known n
  | @hastens j e below =>
    exact entered (fun _ => rfl) (fun k => waiter_setWaiter ..) (fun _ => rfl) fun waits => (waiters j waits).mono below
  | @departs j w _ gone _ =>
    exact entered (fun _ => rfl) (fun k => waiter_setWaiter ..) (fun _ => rfl) fun waits => absurd waits gone
  | forgets _ => exact entered (fun _ => rfl) (fun k => waiter_setWaiter ..) (fun _ => rfl) nofun
  | @waits f j w _ _ _ _ known _ clamped =>
    obtain ⟨n, clamped⟩ := clamped
    exact entered (fun _ => rfl) (fun k => waiter_setWaiter ..) (fun _ => rfl) fun _ => clamped ▸ within_clamp known n
  | @drains code f evt _ _ _ =>
    refine redefined (fun _ => rfl) (fun _ => rfl) fun k d g e found ends _ => .inr ⟨g, ?_, ends⟩
    rw [feature_drain] at found
    split at found
    · cases found
    · exact found
  | @rewrites code f g rewrites =>
    refine redefined (fun _ => rfl) (fun _ => rfl) fun k d r e found ends carried => ?_
    rw [feature_setFeature] at found
    split at found
    · rename_i same
      subst same
      cases found
      rcases rewrites.clamped with unchanged | before
      · exact .inr ⟨f, rewrites.known, unchanged ▸ ends⟩
      · obtain ⟨holdingsBefore, waitersBefore⟩ := before e ends
        rcases carried with ⟨i, counted, feature, rfl⟩ | ⟨j, waits, feature, rfl⟩
        · exact .inl (holdingsBefore i counted feature)
        · exact .inl (waitersBefore j waits feature)
    · exact .inr ⟨r, found, ends⟩
  | @creates code g absent _ =>
    refine redefined (fun _ => rfl) (fun _ => rfl) fun k d r e found ends carried => ?_
    rw [feature_setFeature] at found
    split at found
    · rename_i same
      subst same
      rcases carried with ⟨i, counted, feature, -⟩ | ⟨j, waits, feature, -⟩
      · obtain ⟨f, known, -⟩ := held i counted
        cases absent.symm.trans (feature ▸ known)
      · obtain ⟨f, known, -⟩ := queues.waiting_queued j waits
        cases absent.symm.trans (feature ▸ known)
    · exact .inr ⟨r, found, ends⟩

theorem Blank.clamped (blank : Blank s t) : ClampOk t := by
  refine ⟨fun i counted => ?_, fun j waits => ?_⟩
  · rw [(blank.holding i).1] at counted
    cases counted
  · rw [blank.waiter] at waits
    cases waits

/-! ### Every act keeps them -/

/-- The tables in their form, the entries, their features and the queues: what O54 keeps. -/
structure InOrder (s : State) : Prop where
  tables : TablesOk s
  entries : EntriesOk s
  held : FeaturesHeld s
  queues : QueuesOk s

theorem Setting.strokes (sets : Setting c s t) (order : InOrder s) : Strokes s t ∨ Blank s t := by
  cases sets with
  | aside same =>
    have pools : t.pools = s.pools := (congrArg State.pools same :)
    refine .inl (.aside ⟨(congrArg State.holdings same :), (congrArg State.waiters same :),
      (congrArg State.features same :), fun p => ?_⟩)
    rw [State.pool, pools, State.pool]
  | resets low _ => exact .inr (.of_reset low)
  | divides _ _ => exact .inl (.aside ⟨rfl, rfl, rfl, fun _ => rfl⟩)
  | turns _ _ _ => exact .inl (.aside ⟨rfl, rfl, rfl, fun _ => rfl⟩)
  | stepsTo _ _ => exact .inl (.aside ⟨rfl, rfl, rfl, fun _ => rfl⟩)
  | stepsBack _ _ _ holdings waiters =>
    have free := holding_free_of_holdingsFree holdings
    have idle := waiter_free_of_waitersFree waiters
    refine .inr ⟨fun i => ⟨free i, ?_⟩, idle, fun p => ?_, fun _ => .inr (.inl rfl), fun _ => .inr (.inl rfl)⟩
    · have refs := order.entries.references i
      rw [Holding.refsOk, free i] at refs
      exact refs
    · refine List.eq_nil_iff_forall_not_mem.mpr fun j queued => ?_
      have waits := order.queues.queued_waits p j queued
      rw [idle j] at waits
      cases waits
  | opens _ => exact .inl (.aside ⟨rfl, rfl, rfl, fun _ => rfl⟩)
  | closes => exact .inl (.aside ⟨rfl, rfl, rfl, fun _ => rfl⟩)
  | listsProject _ _ => exact .inl (.aside ⟨rfl, rfl, rfl, fun _ => rfl⟩)
  | unlistsProject _ => exact .inl (.aside ⟨rfl, rfl, rfl, fun _ => rfl⟩)
  | removesUser _ => exact .inl (.aside ⟨rfl, rfl, rfl, fun _ => rfl⟩)
  | definesUser _ _ => exact .inl (.aside ⟨rfl, rfl, rfl, fun _ => rfl⟩)
  | removesHost _ => exact .inl (.aside ⟨rfl, rfl, rfl, fun _ => rfl⟩)
  | definesHost _ _ => exact .inl (.aside ⟨rfl, rfl, rfl, fun _ => rfl⟩)
  | writes _ => exact .inl (.aside ⟨rfl, rfl, rfl, fun _ => rfl⟩)

theorem Deed.strokes (deed : Deed c s t) (order : InOrder s) : Strokes s t ∨ Blank s t := by
  cases deed with
  | sets sets => exact sets.strokes order
  | deals dealing =>
    rcases dealing.strokes order.tables with strokes | ⟨rfl, -⟩
    · exact .inl strokes
    · exact .inr (.of_clearedOut order.tables order.entries.references)

/-- The entries, their features and the queues, without the form of the tables. -/
structure Rolled (s : State) : Prop where
  entries : EntriesOk s
  held : FeaturesHeld s
  queues : QueuesOk s

theorem Strokes.rolled (strokes : Strokes s t) (ok : Rolled s) : Rolled t :=
  strokes.keeps (P := Rolled)
    (fun _ _ stroke ⟨entries, held, queues⟩ =>
      ⟨stroke.entries entries, stroke.featuresHeld held, stroke.queues queues⟩) ok

theorem InOrder.rolled (order : InOrder s) : Rolled s := ⟨order.entries, order.held, order.queues⟩

theorem Rolled.inOrder (ok : Rolled s) (tables : TablesOk s) : InOrder s := ⟨tables, ok.1, ok.2, ok.3⟩

theorem Deed.inOrder (deed : Deed c s t) (order : InOrder s) : InOrder t := by
  have tables := deed.tables order.tables
  rcases deed.strokes order with strokes | blank
  · exact (strokes.rolled order.rolled).inOrder tables
  · exact ⟨tables, blank.entries order.entries, blank.featuresHeld, blank.queues⟩

theorem Follows.inOrder (follows : Follows s t) (order : InOrder s) : InOrder t :=
  ((follows.strokes order.tables).rolled order.rolled).inOrder (follows.tables order.tables)

/-- What every stroke keeps while the entries, their features and the queues are in order, and what an emptying brings
about, every step keeps. -/
theorem step_keeps_rolled {P : State → Prop} (stroke : ∀ s t, Stroke s t → Rolled s → P s → P t)
    (blank : ∀ s t, Blank s t → P t) (stepped : step s = .next t) (order : InOrder s) (holds : P s) : P t := by
  have strokes {s t : State} (strokes : Strokes s t) (ok : Rolled s) (holds : P s) : P t :=
    (strokes.keeps (P := fun u => Rolled u ∧ P u)
      (fun u v each ⟨ok, holds⟩ => ⟨Strokes.rolled (.single each) ok, stroke u v each ok holds⟩) ⟨ok, holds⟩).2
  refine (step_keeps (P := fun u => InOrder u ∧ P u) (fun c u v deed ⟨order, holds⟩ => ⟨deed.inOrder order, ?_⟩)
    (fun u v follows ⟨order, holds⟩ => ⟨follows.inOrder order, ?_⟩) stepped ⟨order, holds⟩).2
  · rcases deed.strokes order with run | empty
    · exact strokes run order.rolled holds
    · exact blank u v empty
  · exact strokes (follows.strokes order.tables) order.rolled holds

end Sys2Proof.Machine

namespace Sys2Proof.Claims

open Sys2Proof.Machine

/-- Settles O54: each act is a run of strokes, or an emptying, and each of these keeps the entries, their features and
the queues in order. -/
theorem stepsKeepEntriesAndQueues : Obligations.StepsKeepEntriesAndQueues := by
  intro s t tables _ entries held queues stepped
  obtain ⟨-, entriesKept, heldKept, queuesKept⟩ :=
    step_keeps (P := InOrder) (fun _ _ _ deed order => deed.inOrder order) (fun _ _ follows order => follows.inOrder order)
      stepped ⟨tables, entries, held, queues⟩
  exact ⟨entriesKept, heldKept, queuesKept⟩

/-- Settles O56: a new holding comes under a key that no other has, and no other stroke gives a holding a key. -/
theorem stepsKeepMergeKeysDistinct : Obligations.StepsKeepMergeKeysDistinct := by
  intro s t tables _ entries held queues keys stepped
  exact step_keeps_rolled (fun _ _ stroke ok keys => stroke.keys ok.held keys) (fun _ _ blank => blank.keys) stepped
    ⟨tables, entries, held, queues⟩ keys

/-- Settles O57: every deadline is clamped when it is made, and lowered where its feature's end instant moves before it. -/
theorem stepsKeepDeadlinesClamped : Obligations.StepsKeepDeadlinesClamped := by
  intro s t tables _ entries held queues clamped stepped
  exact step_keeps_rolled (fun _ _ stroke ok clamped => stroke.clamped ok.held ok.queues clamped)
    (fun _ _ blank => blank.clamped) stepped ⟨tables, entries, held, queues⟩ clamped

end Sys2Proof.Claims
end

section
/-! SUPPORT. Every act keeps the books of pools and allotments balanced, and every over state to its condition: the proof
of O55. -/

namespace Sys2Proof.Machine

open Sys2Proof.Claims

variable {c : Instr} {s t u : State}

/-! ### The books as sums over the holdings table (R44, R45) -/

/-- What a holding adds to a figure of a pool that counts the states a test names. -/
def Holding.inPool (named : HoldingState → Bool) (p : Nat) (h : Holding) : Nat :=
  if named h.state && h.pool == p then h.tokens else 0

/-- What a holding adds to the used figure of an allotment. -/
def Holding.inShare (project pool : Nat) (h : Holding) : Nat :=
  if h.state.counted && h.project == project && h.pool == pool then h.tokens else 0

theorem tokensIn_eq (s : State) (p : Nat) (named : HoldingState → Bool) :
    s.tokensIn p named = tableSum (Holding.inPool named p) s.holdings :=
  sum_filter_eq_tableSum (fun h : Holding => h.tokens) (fun h : Holding => named h.state && h.pool == p) s.holdings

theorem projectTokens_eq (s : State) (project pool : Nat) :
    s.projectTokens project pool = tableSum (Holding.inShare project pool) s.holdings :=
  sum_filter_eq_tableSum (fun h : Holding => h.tokens)
    (fun h : Holding => h.state.counted && h.project == project && h.pool == pool) s.holdings

theorem inPool_initial (named : HoldingState → Bool) (p : Nat) : Holding.initial.inPool named p = 0 := by
  unfold Holding.inPool
  split <;> rfl

theorem inShare_initial (project pool : Nat) : Holding.initial.inShare project pool = 0 := rfl

theorem inPool_le (s : State) (i p : Nat) (named : HoldingState → Bool) :
    (s.holding i).inPool named p ≤ s.tokensIn p named := by
  rw [tokensIn_eq]
  exact tableGet_le_tableSum _ (inPool_initial named p) s.holdings i

theorem inShare_le (s : State) (i project pool : Nat) :
    (s.holding i).inShare project pool ≤ s.projectTokens project pool := by
  rw [projectTokens_eq]
  exact tableGet_le_tableSum _ (inShare_initial project pool) s.holdings i

/-- The figures follow a holding that is written: what it added before is taken out, what it adds now is put in. -/
structure Posts (s t : State) (i : Nat) (h : Holding) : Prop where
  holdings : t.holdings = tablePut Holding.initial s.holdings i h
  used : ∀ p, (t.pool p).used + (s.holding i).inPool HoldingState.counted p =
    (s.pool p).used + h.inPool HoldingState.counted p
  borrowed : ∀ p, (t.pool p).borrowed + (s.holding i).inPool (fun st => st == .borrowed) p =
    (s.pool p).borrowed + h.inPool (fun st => st == .borrowed) p
  lingering : ∀ p, (t.pool p).lingering + (s.holding i).inPool (fun st => st == .lingering) p =
    (s.pool p).lingering + h.inPool (fun st => st == .lingering) p
  allotments : ∀ a ∈ t.allotments, ∃ b ∈ s.allotments, a.project = b.project ∧ a.pool = b.pool
    ∧ a.used + (s.holding i).inShare b.project b.pool = b.used + h.inShare b.project b.pool

theorem BooksOk.posts (ok : BooksOk s) (tables : TablesOk s) {i : Nat} {h : Holding} (posts : Posts s t i h) :
    BooksOk t := by
  have rising := tables.holdings_canonical.1
  have moved (named : HoldingState → Bool) (p : Nat) :
      t.tokensIn p named + (s.holding i).inPool named p = s.tokensIn p named + h.inPool named p := by
    rw [tokensIn_eq, tokensIn_eq, posts.holdings]
    exact tableSum_put _ (inPool_initial named p) rising i h
  refine ⟨fun p => ?_, fun p => ?_, fun p => ?_, fun a listed => ?_⟩
  · have := posts.used p
    have := ok.used p
    have := moved HoldingState.counted p
    omega
  · have := posts.borrowed p
    have := ok.borrowed p
    have := moved (fun st => st == .borrowed) p
    omega
  · have := posts.lingering p
    have := ok.lingering p
    have := moved (fun st => st == .lingering) p
    omega
  · obtain ⟨b, inList, project, pool, posted⟩ := posts.allotments a listed
    have balanced := ok.allotment b inList
    have share : t.projectTokens b.project b.pool + (s.holding i).inShare b.project b.pool =
        s.projectTokens b.project b.pool + h.inShare b.project b.pool := by
      rw [projectTokens_eq, projectTokens_eq, posts.holdings]
      exact tableSum_put _ (inShare_initial _ _) rising i h
    rw [project, pool]
    omega

/-! ### The over state (R47) -/

/-- A pool's capacity, used figure and over state, and its reserve sum, are as they were. -/
structure SameOver (s t : State) (p : Nat) : Prop where
  capacity : (t.pool p).capacity = (s.pool p).capacity
  used : (t.pool p).used = (s.pool p).used
  isOver : (t.pool p).isOver = (s.pool p).isOver
  reserve : t.reserveSum p = s.reserveSum p

theorem SameOver.of_pool {p : Nat} (pool : t.pool p = s.pool p) (reserve : t.reserveSum p = s.reserveSum p) :
    SameOver s t p := ⟨by rw [pool], by rw [pool], by rw [pool], reserve⟩

/-- Each pool is as it was to its over state, or has it recomputed. -/
theorem OverOk.of_pools (ok : OverOk s)
    (each : ∀ p, SameOver s t p ∨ ∃ q evt, t.pool p = withOver q (t.reserveSum p) evt) : OverOk t := by
  intro p inside
  rcases each p with ⟨capacity, used, isOver, reserve⟩ | ⟨q, evt, recomputed⟩
  · rw [capacity, used, isOver, reserve]
    exact ok p inside
  · rw [recomputed]
    simp [withOver]

/-! ### The books and the over states together -/

/-- The books balance and every over state is right. -/
structure Balanced (s : State) : Prop where
  books : BooksOk s
  states : OverOk s

/-- The holdings, the figures of the pools and the allotments are as they were. -/
structure SameBooks (s t : State) : Prop where
  holdings : t.holdings = s.holdings
  figures : ∀ p, (t.pool p).used = (s.pool p).used ∧ (t.pool p).borrowed = (s.pool p).borrowed
    ∧ (t.pool p).lingering = (s.pool p).lingering ∧ (t.pool p).capacity = (s.pool p).capacity
    ∧ (t.pool p).isOver = (s.pool p).isOver
  allotments : t.allotments = s.allotments

theorem SameBooks.of_fields (holdings : t.holdings = s.holdings) (pools : t.pools = s.pools)
    (allotments : t.allotments = s.allotments) : SameBooks s t :=
  ⟨holdings, fun p => by rw [State.pool, pools, State.pool]; exact ⟨rfl, rfl, rfl, rfl, rfl⟩, allotments⟩

theorem Balanced.of_same (ok : Balanced s) (same : SameBooks s t) : Balanced t := by
  obtain ⟨holdings, figures, allotments⟩ := same
  obtain ⟨⟨used, borrowed, lingering, shares⟩, states⟩ := ok
  refine ⟨⟨fun p => ?_, fun p => ?_, fun p => ?_, fun a listed => ?_⟩, states.of_pools fun p => .inl ?_⟩
  · rw [(figures p).1, tokensIn_eq, holdings, ← tokensIn_eq, used]
  · rw [(figures p).2.1, tokensIn_eq, holdings, ← tokensIn_eq, borrowed]
  · rw [(figures p).2.2.1, tokensIn_eq, holdings, ← tokensIn_eq, lingering]
  · rw [allotments] at listed
    rw [projectTokens_eq, holdings, ← projectTokens_eq, shares a listed]
  · obtain ⟨used, -, -, capacity, isOver⟩ := figures p
    exact ⟨capacity, used, isOver, by rw [State.reserveSum, allotments, State.reserveSum]⟩

/-- A holding is written that adds to every figure what the one before it did. -/
theorem Balanced.rewrite (ok : Balanced s) (tables : TablesOk s) {i : Nat} {h : Holding}
    (named : ∀ (st : HoldingState → Bool) p, st .free = false → st .lapsed = false →
      h.inPool st p = (s.holding i).inPool st p)
    (share : ∀ project pool, h.inShare project pool = (s.holding i).inShare project pool)
    (holdings : t.holdings = tablePut Holding.initial s.holdings i h) (pools : t.pools = s.pools)
    (allotments : t.allotments = s.allotments) : Balanced t := by
  have pool (p : Nat) : t.pool p = s.pool p := by rw [State.pool, pools, State.pool]
  refine ⟨ok.books.posts tables (i := i) (h := h) ⟨holdings, fun p => ?_, fun p => ?_, fun p => ?_, fun a listed => ?_⟩,
    ok.states.of_pools fun p => .inl (.of_pool (pool p) ?_)⟩
  · rw [pool, named _ p rfl rfl]
  · rw [pool, named _ p rfl rfl]
  · rw [pool, named _ p rfl rfl]
  · exact ⟨a, allotments ▸ listed, rfl, rfl, by rw [share]⟩
  · rw [State.reserveSum, allotments, State.reserveSum]

theorem inPool_of_same {g h : Holding} (state : g.state = h.state) (pool : g.pool = h.pool) (tokens : g.tokens = h.tokens)
    (named : HoldingState → Bool) (p : Nat) : g.inPool named p = h.inPool named p := by
  rw [Holding.inPool, state, pool, tokens, Holding.inPool]

theorem inShare_of_same {g h : Holding} (state : g.state = h.state) (pool : g.pool = h.pool) (tokens : g.tokens = h.tokens)
    (project : g.project = h.project) (k p : Nat) : g.inShare k p = h.inShare k p := by
  rw [Holding.inShare, state, pool, tokens, project, Holding.inShare]

/-- A holding's deadline, references and seats are on no book. -/
theorem Balanced.placeHolding_same (ok : Balanced s) (tables : TablesOk s) (i : Nat) {h : Holding}
    (state : h.state = (s.holding i).state) (pool : h.pool = (s.holding i).pool) (tokens : h.tokens = (s.holding i).tokens)
    (project : h.project = (s.holding i).project) : Balanced (s.placeHolding i h) :=
  ok.rewrite tables (fun named p _ _ => inPool_of_same state pool tokens named p) (inShare_of_same state pool tokens project)
    (placeHolding_holdings ..) (placeHolding_pools ..) (placeHolding_allotments ..)

theorem inShare_uncounted {h : Holding} (uncounted : h.state.counted = false) (project pool : Nat) :
    h.inShare project pool = 0 := by simp [Holding.inShare, uncounted]

theorem inPool_unnamed {h : Holding} {named : HoldingState → Bool} (unnamed : named h.state = false) (p : Nat) :
    h.inPool named p = 0 := by simp [Holding.inPool, unnamed]

theorem inPool_named {h : Holding} {named : HoldingState → Bool} (isNamed : named h.state = true) (p : Nat) :
    h.inPool named p = if p = h.pool then h.tokens else 0 := by
  simp only [Holding.inPool, isNamed, Bool.true_and, beq_iff_eq, @eq_comm _ p]

theorem inShare_counted {h : Holding} (counted : h.state.counted = true) (project pool : Nat) :
    h.inShare project pool = if project = h.project ∧ pool = h.pool then h.tokens else 0 := by
  simp [Holding.inShare, counted, @eq_comm _ project, @eq_comm _ pool]

/-! ### Postings (R57, R59) -/

/-- A posting changes the used figure of the allotment of its key alone, and reserves stay. -/
theorem mem_postedAllotments {l : List Allotment} {project pool : Nat} {g : Nat → Nat} {a : Allotment}
    (listed : a ∈ postedAllotments l project pool g) :
    ∃ b ∈ l, a.project = b.project ∧ a.pool = b.pool
      ∧ a.used = if b.project = project ∧ b.pool = pool then g b.used else b.used := by
  obtain ⟨b, inList, rfl⟩ := List.mem_map.mp listed
  refine ⟨b, inList, ?_⟩
  split <;> exact ⟨rfl, rfl, rfl⟩

/-- A holding leaves the counted states, and its tokens every figure that they stood in. -/
theorem posts_refund (ok : BooksOk s) {i : Nat} {x : Holding} (evt : Nat)
    (counted : (s.holding i).state.counted = true) (uncounted : x.state.counted = false) :
    Posts s ((s.placeHolding i x).refund (s.holding i) evt) i x := by
  have named (st : HoldingState) (h : st.counted = true) : (x.state == st) = false := by
    rw [beq_eq_false_iff_ne]
    rintro same
    rw [same, h] at uncounted
    cases uncounted
  refine ⟨placeHolding_holdings .., fun p => ?_, fun p => ?_, fun p => ?_, fun a listed => ?_⟩
  · have enough := inPool_le s i p HoldingState.counted
    rw [← ok.used, inPool_named counted] at enough
    rw [pool_refund, pool_placeHolding, inPool_named counted, inPool_unnamed uncounted]
    split
    · rename_i same
      rw [if_pos same, same] at enough
      simp only [refundedPool, withOver, same]
      omega
    · simp
  · rw [pool_refund, pool_placeHolding, inPool_unnamed (h := x) (named .borrowed rfl)]
    have enough := inPool_le s i p (fun st => st == .borrowed)
    rw [← ok.borrowed] at enough
    by_cases borrowed : (s.holding i).state = .borrowed
    · rw [inPool_named (by simpa using borrowed)] at enough ⊢
      split
      · rename_i same
        rw [if_pos same, same] at enough
        simp only [refundedPool, withOver, borrowed, if_true, same]
        omega
      · simp
    · rw [inPool_unnamed (by simpa using borrowed)]
      split
      · rename_i same
        simp [refundedPool, withOver, borrowed, same]
      · rw [pool_placeHolding]
  · rw [pool_refund, pool_placeHolding, inPool_unnamed (h := x) (named .lingering rfl)]
    have enough := inPool_le s i p (fun st => st == .lingering)
    rw [← ok.lingering] at enough
    by_cases lingers : (s.holding i).state = .lingering
    · rw [inPool_named (by simpa using lingers)] at enough ⊢
      split
      · rename_i same
        rw [if_pos same, same] at enough
        simp only [refundedPool, withOver, lingers, if_true, same]
        omega
      · simp
    · rw [inPool_unnamed (by simpa using lingers)]
      split
      · rename_i same
        simp [refundedPool, withOver, lingers, same]
      · rw [pool_placeHolding]
  · rw [refund_allotments, placeHolding_allotments] at listed
    obtain ⟨b, inList, project, pool, used⟩ := mem_postedAllotments listed
    refine ⟨b, inList, project, pool, ?_⟩
    have enough := inShare_le s i b.project b.pool
    rw [← ok.allotment b inList, inShare_counted counted] at enough
    rw [inShare_uncounted uncounted, inShare_counted counted, used]
    split
    · rename_i same
      rw [if_pos same] at enough
      omega
    · rfl

/-- What a charge of a cost to a project in a pool does to the books, whether it posts it or finds nothing to post. -/
structure Charges (s t : State) (pool project cost : Nat) : Prop where
  used : ∀ p, (t.pool p).used = (s.pool p).used + if p = pool then cost else 0
  borrowed : ∀ p, (t.pool p).borrowed = (s.pool p).borrowed
  lingering : ∀ p, (t.pool p).lingering = (s.pool p).lingering
  allotments : ∀ a ∈ t.allotments, ∃ b ∈ s.allotments, a.project = b.project ∧ a.pool = b.pool
    ∧ a.used = b.used + if b.project = project ∧ b.pool = pool then cost else 0
  states : ∀ p, SameOver s t p ∨ ∃ q evt, t.pool p = withOver q (t.reserveSum p) evt

theorem charges_charge (s : State) (pool project cost evt : Nat) :
    Charges s (s.charge pool project cost evt) pool project cost := by
  refine ⟨fun p => ?_, fun p => ?_, fun p => ?_, fun a listed => ?_, fun p => ?_⟩
  · rw [pool_charge]
    split
    · rename_i same
      rw [same]
      rfl
    · rfl
  · rw [pool_charge]
    split
    · rename_i same
      rw [same]
      rfl
    · rfl
  · rw [pool_charge]
    split
    · rename_i same
      rw [same]
      rfl
    · rfl
  · rw [charge_allotments] at listed
    obtain ⟨b, inList, key, place, used⟩ := mem_postedAllotments listed
    refine ⟨b, inList, key, place, used.trans ?_⟩
    split <;> rfl
  · by_cases same : p = pool
    · subst same
      refine .inr ⟨{ s.pool p with used := (s.pool p).used + cost }, evt, ?_⟩
      rw [pool_charge, if_pos rfl, reserveSum_charge, chargedPool]
    · refine .inl (.of_pool ?_ (reserveSum_charge ..))
      rw [pool_charge, if_neg same]

theorem charges_chargeJoin (s : State) (h : Holding) (cost evt : Nat) :
    Charges s (s.chargeJoin h cost evt) h.pool h.project cost := by
  unfold State.chargeJoin
  split
  · rename_i free
    subst free
    refine ⟨fun p => ?_, fun _ => rfl, fun _ => rfl, fun a listed => ⟨a, listed, rfl, rfl, ?_⟩,
      fun p => .inl (.of_pool rfl rfl)⟩ <;> rw [ite_self, Nat.add_zero]
  · exact charges_charge ..

theorem Charges.overOk {pool project cost : Nat} (charges : Charges s t pool project cost) (ok : OverOk s) : OverOk t :=
  ok.of_pools charges.states

/-- The charge of a holding that is LIVE with as many tokens more as it costs: a new one, or a merge. -/
theorem Charges.posts {i cost : Nat} {h : Holding} (charges : Charges (s.placeHolding i h) t h.pool h.project cost)
    (holdings : t.holdings = (s.placeHolding i h).holdings) (live : h.state = .live)
    (before : ((s.holding i).state.counted = false ∧ h.tokens = cost)
      ∨ ((s.holding i).state = .live ∧ (s.holding i).pool = h.pool ∧ (s.holding i).project = h.project
        ∧ h.tokens = (s.holding i).tokens + cost)) : Posts s t i h := by
  have counted : h.state.counted = true := by rw [live]; rfl
  have notBorrowed : (h.state == .borrowed) = false := by rw [live]; rfl
  have notLingering : (h.state == .lingering) = false := by rw [live]; rfl
  have unnamed (st : HoldingState) (other : st ≠ .live) (isCounted : st.counted = true) :
      ((s.holding i).state == st) = false := by
    rw [beq_eq_false_iff_ne]
    rcases before with ⟨uncounted, -⟩ | ⟨was, -⟩
    · rintro same
      rw [same, isCounted] at uncounted
      cases uncounted
    · rw [was]
      exact other.symm
  refine ⟨holdings.trans (placeHolding_holdings ..), fun p => ?_, fun p => ?_, fun p => ?_, fun a listed => ?_⟩
  · rw [charges.used, pool_placeHolding, inPool_named counted]
    rcases before with ⟨uncounted, tokens⟩ | ⟨was, pool, -, tokens⟩
    · rw [inPool_unnamed uncounted, tokens, Nat.add_zero]
    · rw [inPool_named (by rw [was]; rfl), pool, tokens]
      split <;> omega
  · rw [charges.borrowed, pool_placeHolding, inPool_unnamed (h := h) notBorrowed,
      inPool_unnamed (unnamed .borrowed nofun rfl)]
  · rw [charges.lingering, pool_placeHolding, inPool_unnamed (h := h) notLingering,
      inPool_unnamed (unnamed .lingering nofun rfl)]
  · obtain ⟨b, inList, key, place, used⟩ := charges.allotments a listed
    rw [placeHolding_allotments] at inList
    refine ⟨b, inList, key, place, ?_⟩
    rw [used, inShare_counted counted]
    rcases before with ⟨uncounted, tokens⟩ | ⟨was, pool, project, tokens⟩
    · rw [inShare_uncounted uncounted, tokens]
      rfl
    · rw [inShare_counted (by rw [was]; rfl), pool, project, tokens]
      split <;> omega

/-- The charge of a holding that is LIVE again, its tokens taken out of lingering (R81, R57). -/
theorem Charges.posts_reattach {i cost : Nat} {h : Holding} (ok : BooksOk s)
    (charges : Charges ((s.placeHolding i h).unlinger (s.holding i).pool (s.holding i).tokens) t h.pool h.project cost)
    (holdings : t.holdings = (s.placeHolding i h).holdings) (live : h.state = .live)
    (lingers : (s.holding i).state = .lingering) (pool : (s.holding i).pool = h.pool)
    (project : (s.holding i).project = h.project) (tokens : h.tokens = (s.holding i).tokens + cost) :
    Posts s t i h := by
  have counted : h.state.counted = true := by rw [live]; rfl
  have was : (s.holding i).state.counted = true := by rw [lingers]; rfl
  refine ⟨holdings.trans (placeHolding_holdings ..), fun p => ?_, fun p => ?_, fun p => ?_, fun a listed => ?_⟩
  · have used : (((s.placeHolding i h).unlinger (s.holding i).pool (s.holding i).tokens).pool p).used = (s.pool p).used := by
      rw [pool_unlinger, pool_placeHolding]
      split
      · rename_i same
        rw [same]
      · rw [pool_placeHolding]
    rw [charges.used, used, inPool_named counted, inPool_named was, pool, tokens]
    split <;> omega
  · have figure : (((s.placeHolding i h).unlinger (s.holding i).pool (s.holding i).tokens).pool p).borrowed =
        (s.pool p).borrowed := by
      rw [pool_unlinger, pool_placeHolding]
      split
      · rename_i same
        rw [same]
      · rw [pool_placeHolding]
    rw [charges.borrowed, figure, inPool_unnamed (h := h) (by rw [live]; rfl), inPool_unnamed (by rw [lingers]; rfl)]
  · have enough := inPool_le s i p (fun st => st == .lingering)
    rw [← ok.lingering, inPool_named (by rw [lingers]; rfl)] at enough
    rw [charges.lingering, pool_unlinger, pool_placeHolding, inPool_unnamed (h := h) (by rw [live]; rfl),
      inPool_named (by rw [lingers]; rfl)]
    split
    · rename_i same
      rw [if_pos same, same] at enough
      simp only [same]
      omega
    · rw [pool_placeHolding]
  · obtain ⟨b, inList, key, place, used⟩ := charges.allotments a listed
    change b ∈ (s.placeHolding i h).allotments at inList
    rw [placeHolding_allotments] at inList
    refine ⟨b, inList, key, place, ?_⟩
    rw [used, inShare_counted counted, inShare_counted was, pool, project, tokens]
    split <;> omega

theorem OverOk.placeHolding (ok : OverOk s) (i : Nat) (h : Holding) : OverOk (s.placeHolding i h) :=
  ok.of_pools fun _ => .inl (.of_pool (pool_placeHolding ..) (reserveSum_placeHolding ..))

theorem OverOk.setFigures (ok : OverOk s) {p : Nat} {q : Pool} (capacity : q.capacity = (s.pool p).capacity)
    (used : q.used = (s.pool p).used) (isOver : q.isOver = (s.pool p).isOver) : OverOk (s.setPool p q) := by
  refine ok.of_pools fun k => .inl ⟨?_, ?_, ?_, reserveSum_setPool ..⟩ <;> rw [pool_setPool] <;> split
  · rename_i same
    rw [same, capacity]
  · rfl
  · rename_i same
    rw [same, used]
  · rfl
  · rename_i same
    rw [same, isOver]
  · rfl

namespace Balanced

theorem grantPath (ok : Balanced s) (tables : TablesOk s) {f : Feature} {a : Asking} {path : Path} {cost i : Nat}
    (chosen : Chosen s f a path cost i) (evt : Nat) : Balanced (s.grantPath f a path cost i evt) := by
  obtain ⟨known, byKey, -, entry⟩ := chosen
  obtain ⟨shared, separate⟩ := pathFollowsTheKeyIndex s f.sharing a tables
  cases path with
  | fresh =>
    have uncounted : (s.holding i).state.counted = false := by
      rcases (allocationTakesFreeThenOldestLapsed s tables).1 i entry with ⟨-, free, -⟩ | ⟨-, lapsed, -⟩
      · rw [free]
        rfl
      · rw [lapsed]
        rfl
    have charges := charges_charge (s.placeHolding i
      { gen := if (s.holding i).state = .lapsed then nextGen (s.holding i).gen else (s.holding i).gen
        state := .live
        feature := a.feature
        pool := f.pool
        user := a.user
        host := a.host
        project := a.project
        seats := a.seats
        refs := 1
        tokens := cost
        deadline := s.leaseEnd f
        endReason := none
        eventTime := 0 }) f.pool a.project cost evt
    exact ⟨ok.books.posts tables (charges.posts rfl rfl (.inl ⟨uncounted, rfl⟩)),
      charges.overOk (ok.states.placeHolding _ _)⟩
  | merge k =>
    obtain rfl : k = i := Option.some.inj entry
    have live : (s.holding k).state = .live := by
      by_cases kind : f.sharing = .separate
      · exact absurd byKey ((separate kind).1 k)
      · exact ((shared kind).1 k byKey).1
    have charges := charges_chargeJoin (s.placeHolding k
      { s.holding k with
        refs := (s.holding k).refs + 1
        seats := max (s.holding k).seats a.seats
        tokens := (s.holding k).tokens + cost
        deadline := s.leaseEnd f }) (s.holding k) cost evt
    exact ⟨ok.books.posts tables (charges.posts (SameRoll.chargeJoin ..).holding live (.inr ⟨live, rfl, rfl, rfl⟩)),
      charges.overOk (ok.states.placeHolding _ _)⟩
  | reattach k =>
    obtain rfl : k = i := Option.some.inj entry
    have lingers : (s.holding k).state = .lingering := by
      by_cases kind : f.sharing = .separate
      · exact ((separate kind).2.1 k byKey).1
      · exact ((shared kind).2.1 k byKey).1
    have charges := charges_chargeJoin ((s.placeHolding k
      { s.holding k with
        state := .live
        refs := 1
        seats := max (s.holding k).seats a.seats
        tokens := (s.holding k).tokens + cost
        deadline := s.leaseEnd f }).unlinger (s.holding k).pool (s.holding k).tokens) (s.holding k) cost evt
    exact ⟨ok.books.posts tables
        (charges.posts_reattach ok.books (SameRoll.chargeJoin ..).holding rfl lingers rfl rfl rfl),
      charges.overOk ((ok.states.placeHolding _ _).setFigures rfl rfl rfl)⟩

theorem dequeue (ok : Balanced s) (pool j : Nat) (w : Waiter) : Balanced (s.dequeue pool j w) := by
  refine ok.of_same ⟨dequeue_holdings .., fun p => ?_, dequeue_allotments ..⟩
  rw [pool_dequeue]
  split
  · rename_i same
    rw [same]
    exact ⟨rfl, rfl, rfl, rfl, rfl⟩
  · exact ⟨rfl, rfl, rfl, rfl, rfl⟩

theorem placeWaiter (ok : Balanced s) (j : Nat) (w : Waiter) : Balanced (s.placeWaiter j w) :=
  ok.of_same (.of_fields (placeWaiter_holdings ..) (placeWaiter_pools ..) (placeWaiter_allotments ..))

theorem drainReport (ok : Balanced s) (code evt : Nat) : Balanced (s.drainReport code evt) := by
  rcases drainReport_cases s code evt with same | ⟨-, -, drained⟩
  · rw [same]
    exact ok
  · rw [drained]
    exact ok.of_same (.of_fields rfl rfl rfl)

theorem uncount (ok : Balanced s) (tables : TablesOk s) {i : Nat} {x : Holding} (evt : Nat)
    (counted : (s.holding i).state.counted = true) (ends : (s.holding i).EndsAs x) : Balanced (s.uncount i x evt) := by
  have refunded : Balanced ((s.placeHolding i x).refund (s.holding i) evt) := by
    refine ⟨ok.books.posts tables (posts_refund ok.books evt counted ends.uncounted),
      (ok.states.placeHolding i x).of_pools fun p => ?_⟩
    by_cases same : p = (s.holding i).pool
    · refine .inr ?_
      rw [pool_refund, if_pos same, reserveSum_refund, same]
      exact ⟨_, evt, rfl⟩
    · refine .inl (.of_pool ?_ (reserveSum_refund ..))
      rw [pool_refund, if_neg same]
  exact Balanced.drainReport refunded _ evt

theorem endFeatureWaiters (ok : Balanced s) (code : Nat) (reason : WaiterEnd) (evt : Nat) :
    Balanced (s.endFeatureWaiters code reason evt) :=
  endFeatureWaiters_induct (P := Balanced) (fun _ _ _ kept => kept.dequeue ..) ok

theorem reclamped (ok : Balanced s) (tables : TablesOk s) (code : Nat) (new : Feature) :
    Balanced (s.reclamped code new) := by
  unfold State.reclamped
  split
  · refine (reclamp_induct (P := fun u => TablesOk u ∧ Balanced u) (fun u i h _ _ _ found ⟨kept, ok⟩ => ?_)
      (fun u j w _ _ _ _ ⟨kept, ok⟩ => ⟨kept.placeWaiter .., ok.placeWaiter ..⟩) ⟨tables, ok⟩).2
    obtain rfl := found tables.holdings_canonical.1
    exact ⟨kept.placeHolding .., ok.placeHolding_same kept i rfl rfl rfl rfl⟩
  · exact ok

end Balanced

end Sys2Proof.Machine
end

section
/-! SUPPORT. The books and the over states through every act and consequence, and the proof of O55. -/

namespace Sys2Proof.Machine

open Sys2Proof.Claims

variable {c : Instr} {s t u : State}

/-! ### Consequences -/

theorem Handled.balanced {d : Deadline} (handled : Handled d s t) (tables : TablesOk s) (ok : Balanced s) :
    Balanced t := by
  cases handled with
  | nothing _ => exact ok
  | @holding x evt kind ends =>
    refine ok.uncount tables evt ?_ ends
    rw [← Bool.not_eq_false, ← deadlineKind_none_iff, kind]
    nofun
  | waiter _ _ => exact ok.dequeue ..
  | @feature f _ _ _ =>
    have written : Balanced (s.setFeature d.record { f with endLodged := false }) := ok.of_same (.of_fields rfl rfl rfl)
    exact written.endFeatureWaiters ..

theorem Follows.balanced (follows : Follows s t) (tables : TablesOk s) (ok : Balanced s) : Balanced t := by
  induction follows with
  | done s => exact ok
  | marks mark _ ih => exact ih (tables.of_ledger rfl) (ok.of_same (.of_fields rfl rfl rfl))
  | grants evt grants _ ih => exact ih (tables.grantWaiter ..) ((ok.grantPath tables grants.chosen evt).dequeue ..)
  | @handles s u t d n _ handled _ ih =>
    have kept := tables.withDeadlines s.reached (s.atOnce.erase d) n
    exact ih (handled.tables kept) (handled.balanced kept (ok.of_same (.of_fields rfl rfl rfl)))

/-! ### A LIVE holding that goes on in another counted state (R58, R60) -/

/-- The pool's borrowed or lingering figure takes the tokens of a LIVE holding that goes on in that state. -/
theorem Balanced.moves (ok : Balanced s) (tables : TablesOk s) {i : Nat} {h : Holding} {q : Pool}
    (live : (s.holding i).state = .live) (pool : h.pool = (s.holding i).pool) (tokens : h.tokens = (s.holding i).tokens)
    (project : h.project = (s.holding i).project)
    (figures : (h.state = .lingering ∧ q =
        { s.pool (s.holding i).pool with
          lingering := (s.pool (s.holding i).pool).lingering + (s.holding i).tokens })
      ∨ (h.state = .borrowed ∧ q =
        { s.pool (s.holding i).pool with
          borrowed := (s.pool (s.holding i).pool).borrowed + (s.holding i).tokens })) :
    Balanced ((s.placeHolding i h).setPool (s.holding i).pool q) := by
  have was : (s.holding i).state.counted = true := by rw [live]; rfl
  have counted : h.state.counted = true := by rcases figures with ⟨state, -⟩ | ⟨state, -⟩ <;> rw [state] <;> rfl
  have written (p : Nat) : ((s.placeHolding i h).setPool (s.holding i).pool q).pool p =
      if p = (s.holding i).pool then q else s.pool p := by
    rw [pool_setPool]
    split
    · rfl
    · rw [pool_placeHolding]
  have same (p : Nat) : ((if p = (s.holding i).pool then q else s.pool p).used = (s.pool p).used)
      ∧ ((if p = (s.holding i).pool then q else s.pool p).capacity = (s.pool p).capacity)
      ∧ ((if p = (s.holding i).pool then q else s.pool p).isOver = (s.pool p).isOver) := by
    split
    · rename_i here
      rw [here]
      rcases figures with ⟨-, rfl⟩ | ⟨-, rfl⟩ <;> exact ⟨rfl, rfl, rfl⟩
    · exact ⟨rfl, rfl, rfl⟩
  refine ⟨ok.books.posts tables (i := i) (h := h)
      ⟨placeHolding_holdings .., fun p => ?_, fun p => ?_, fun p => ?_, fun a listed => ?_⟩,
    ok.states.of_pools fun p => .inl ⟨?_, ?_, ?_, reserveSum_placeHolding ..⟩⟩
  · rw [written, (same p).1, inPool_named counted, inPool_named was, pool, tokens]
  · rw [written, inPool_unnamed (h := s.holding i) (by rw [live]; rfl)]
    rcases figures with ⟨state, rfl⟩ | ⟨state, rfl⟩
    · rw [inPool_unnamed (h := h) (by rw [state]; rfl)]
      split
      · rename_i here
        rw [here]
      · rfl
    · rw [inPool_named (h := h) (by rw [state]; rfl), pool, tokens]
      split
      · rename_i here
        rw [here]
        rfl
      · rfl
  · rw [written, inPool_unnamed (h := s.holding i) (by rw [live]; rfl)]
    rcases figures with ⟨state, rfl⟩ | ⟨state, rfl⟩
    · rw [inPool_named (h := h) (by rw [state]; rfl), pool, tokens]
      split
      · rename_i here
        rw [here]
        rfl
      · rfl
    · rw [inPool_unnamed (h := h) (by rw [state]; rfl)]
      split
      · rename_i here
        rw [here]
      · rfl
  · change a ∈ (s.placeHolding i h).allotments at listed
    rw [placeHolding_allotments] at listed
    refine ⟨a, listed, rfl, rfl, ?_⟩
    rw [inShare_counted counted, inShare_counted was, pool, tokens, project]
  · rw [written, (same p).2.1]
  · rw [written, (same p).1]
  · rw [written, (same p).2.2]

/-! ### Edits of pools and allotments (R6, R10 to R12, R49) -/

/-- An edit that leaves holdings and used figures keeps the books, and the over states where each pool is as it was or
is recomputed. -/
theorem Balanced.edits (ok : Balanced s) (holdings : t.holdings = s.holdings)
    (figures : ∀ p, (t.pool p).used = (s.pool p).used ∧ (t.pool p).borrowed = (s.pool p).borrowed
      ∧ (t.pool p).lingering = (s.pool p).lingering)
    (allotments : ∀ a ∈ t.allotments, (∃ b ∈ s.allotments, a.project = b.project ∧ a.pool = b.pool ∧ a.used = b.used)
      ∨ a.used = s.projectTokens a.project a.pool)
    (states : ∀ p, SameOver s t p ∨ ∃ q evt, t.pool p = withOver q (t.reserveSum p) evt) : Balanced t := by
  refine ⟨⟨fun p => ?_, fun p => ?_, fun p => ?_, fun a listed => ?_⟩, ok.states.of_pools states⟩
  · rw [(figures p).1, tokensIn_eq, holdings, ← tokensIn_eq, ok.books.used]
  · rw [(figures p).2.1, tokensIn_eq, holdings, ← tokensIn_eq, ok.books.borrowed]
  · rw [(figures p).2.2, tokensIn_eq, holdings, ← tokensIn_eq, ok.books.lingering]
  · rw [projectTokens_eq, holdings, ← projectTokens_eq]
    rcases allotments a listed with ⟨b, inList, project, pool, used⟩ | right
    · rw [used, project, pool, ok.books.allotment b inList]
    · exact right

theorem figures_recomputeOver (s : State) (pool evt p : Nat) :
    ((s.recomputeOver pool evt).pool p).used = (s.pool p).used
      ∧ ((s.recomputeOver pool evt).pool p).borrowed = (s.pool p).borrowed
      ∧ ((s.recomputeOver pool evt).pool p).lingering = (s.pool p).lingering := by
  rw [pool_recomputeOver_if]
  split
  · rename_i same
    rw [same]
    exact ⟨rfl, rfl, rfl⟩
  · exact ⟨rfl, rfl, rfl⟩

theorem figures_recomputedIf (s : State) (pool : Nat) (recompute : Bool) (p : Nat) :
    ((s.recomputedIf pool recompute).pool p).used = (s.pool p).used
      ∧ ((s.recomputedIf pool recompute).pool p).borrowed = (s.pool p).borrowed
      ∧ ((s.recomputedIf pool recompute).pool p).lingering = (s.pool p).lingering := by
  unfold State.recomputedIf
  split
  · exact figures_recomputeOver ..
  · exact ⟨rfl, rfl, rfl⟩

theorem recomputedIf_allotments (s : State) (pool : Nat) (recompute : Bool) :
    (s.recomputedIf pool recompute).allotments = s.allotments := by
  unfold State.recomputedIf
  split <;> rfl

theorem reserveSum_recomputedIf (s : State) (pool : Nat) (recompute : Bool) (p : Nat) :
    (s.recomputedIf pool recompute).reserveSum p = s.reserveSum p := by
  rw [State.reserveSum, recomputedIf_allotments, State.reserveSum]

/-- Where an edit of a pool is recomputed, or leaves what its over state rests on, the over states are right. -/
theorem states_recomputedIf {pool : Nat} {recompute : Bool} (others : ∀ p, p ≠ pool → SameOver s t p)
    (stays : recompute = false → SameOver s t pool) (p : Nat) :
    SameOver s (t.recomputedIf pool recompute) p
      ∨ ∃ q evt, (t.recomputedIf pool recompute).pool p = withOver q ((t.recomputedIf pool recompute).reserveSum p) evt := by
  by_cases here : p = pool
  · subst here
    cases recompute with
    | true =>
      refine .inr ⟨t.pool p, t.siteTime, ?_⟩
      rw [reserveSum_recomputedIf]
      exact (pool_recomputeOver_if ..).trans (if_pos rfl)
    | false => exact .inl (stays rfl)
  · refine .inl ?_
    have same : (t.recomputedIf pool recompute).pool p = t.pool p := by
      unfold State.recomputedIf
      split
      · exact (pool_recomputeOver_if ..).trans (if_neg here)
      · rfl
    obtain ⟨capacity, used, isOver, reserve⟩ := others p here
    exact ⟨by rw [same, capacity], by rw [same, used], by rw [same, isOver], by rw [reserveSum_recomputedIf, reserve]⟩

theorem recomputedIf_holdings (s : State) (pool : Nat) (recompute : Bool) :
    (s.recomputedIf pool recompute).holdings = s.holdings := by
  unfold State.recomputedIf
  split <;> rfl

theorem Balanced.recomputedIf (ok : Balanced s) {pool : Nat} {recompute : Bool} (holdings : t.holdings = s.holdings)
    (figures : ∀ p, (t.pool p).used = (s.pool p).used ∧ (t.pool p).borrowed = (s.pool p).borrowed
      ∧ (t.pool p).lingering = (s.pool p).lingering)
    (allotments : ∀ a ∈ t.allotments, (∃ b ∈ s.allotments, a.project = b.project ∧ a.pool = b.pool ∧ a.used = b.used)
      ∨ a.used = s.projectTokens a.project a.pool)
    (others : ∀ p, p ≠ pool → SameOver s t p) (stays : recompute = false → SameOver s t pool) :
    Balanced (t.recomputedIf pool recompute) := by
  refine ok.edits ((recomputedIf_holdings ..).trans holdings) (fun p => ?_) (fun a listed => ?_)
    (states_recomputedIf others stays)
  · obtain ⟨used, borrowed, lingering⟩ := figures_recomputedIf t pool recompute p
    rw [used, borrowed, lingering]
    exact figures p
  · rw [recomputedIf_allotments] at listed
    exact allotments a listed

theorem reserveSum_append (s : State) (a : Allotment) {p : Nat} (other : p ≠ a.pool) :
    ({ s with allotments := s.allotments ++ [a] } : State).reserveSum p = s.reserveSum p := by
  simp [State.reserveSum, List.filter_append, other.symm]

theorem reserveSum_filter (s : State) (project pool : Nat) {p : Nat} (other : p ≠ pool) :
    ({ s with allotments := s.allotments.filter (fun x => !x.keyed project pool) } : State).reserveSum p =
      s.reserveSum p := by
  simp only [State.reserveSum, List.filter_filter]
  refine congrArg (fun l => (List.map _ l).sum) (List.filter_congr fun a _ => ?_)
  by_cases inPool : a.pool = p
  · simp [Allotment.keyed, inPool, other]
  · simp [inPool]

/-- A change of the reserve of one key leaves the reserve sum of another pool, and of its own where the reserve is as it
was. -/
theorem reserveSum_changeAllotment {s : State} {project pool p : Nat} {g : Allotment → Allotment}
    (place : ∀ a, (g a).pool = a.pool)
    (same : p ≠ pool ∨ ∀ a ∈ s.allotments, a.keyed project pool = true → (g a).reserve = a.reserve) :
    (s.changeAllotment project pool g).reserveSum p = s.reserveSum p := by
  simp only [State.reserveSum, State.changeAllotment, List.filter_map, List.map_map]
  have filtered : (fun a : Allotment => a.pool == p) ∘ (fun a => if a.keyed project pool then g a else a) =
      fun a => a.pool == p := by
    funext a
    simp only [Function.comp_apply]
    split
    · rw [place]
    · rfl
  rw [filtered]
  refine congrArg List.sum (List.map_congr_left fun a listed => ?_)
  obtain ⟨inList, inPool⟩ := List.mem_filter.mp listed
  simp only [Function.comp_apply]
  split
  · rename_i keyed
    rcases same with other | same
    · simp only [Allotment.keyed, Bool.and_eq_true, beq_iff_eq] at keyed inPool
      exact absurd (inPool.symm.trans keyed.2) other
    · exact same a inList keyed
  · rfl

theorem eq_of_same_key (tables : TablesOk s) {a b : Allotment} (inA : a ∈ s.allotments) (inB : b ∈ s.allotments)
    (project : a.project = b.project) (pool : a.pool = b.pool) : a = b := by
  exact List.inj_on_of_nodup_map tables.allotments_distinct inA inB (Prod.ext project pool)

/-! ### Clear Holdings (R24) -/

theorem free_of_clearedOut (tables : TablesOk s) {e : Nat × Holding} (listed : e ∈ s.clearedOut.holdings) :
    e.2.state = .free := by
  have canonical := tables.clearedOut.holdings_canonical
  have found : s.clearedOut.holding e.1 = e.2 := tableGet_of_mem canonical.1 listed
  rw [← found, clearedOut_holding s tables.holdings_canonical, Holding.cleared]
  split
  · assumption
  · rfl

/-- What a pool's cleared account comes to, whatever its number: no recomputing changes a figure. -/
theorem figures_clearedOut (tables : TablesOk s) (p : Nat) :
    (s.clearedOut.pool p).used = 0 ∧ (s.clearedOut.pool p).borrowed = 0 ∧ (s.clearedOut.pool p).lingering = 0 := by
  have recomputed : ∀ (l : List Nat) (u : State),
      ((l.foldl (fun acc p => acc.recomputeOver p s.siteTime) u).pool p).used = (u.pool p).used
        ∧ ((l.foldl (fun acc p => acc.recomputeOver p s.siteTime) u).pool p).borrowed = (u.pool p).borrowed
        ∧ ((l.foldl (fun acc p => acc.recomputeOver p s.siteTime) u).pool p).lingering = (u.pool p).lingering := by
    intro l
    induction l with
    | nil => exact fun u => ⟨rfl, rfl, rfl⟩
    | cons k l ih =>
      intro u
      obtain ⟨used, borrowed, lingering⟩ := ih (u.recomputeOver k s.siteTime)
      have one := figures_recomputeOver u k s.siteTime p
      exact ⟨used.trans one.1, borrowed.trans one.2.1, lingering.trans one.2.2⟩
  have pools : s.clearedOut.pools = s.emptiedOut.pools := (congrArg State.pools (clearedOut_eq s) :)
  have emptied : s.emptied.pool p = (s.pool p).cleared := pool_emptied s tables.pools_canonical p
  have same := recomputed (List.range Config.pools) s.emptied
  rw [emptied] at same
  rw [State.pool, pools, ← State.pool, State.emptiedOut, State.recomputeAll]
  exact same

theorem reserveSum_clearedOut (s : State) (p : Nat) : s.clearedOut.reserveSum p = s.reserveSum p := by
  simp only [State.reserveSum, clearedOut_allotments, List.filter_map, List.map_map]
  rfl

theorem Balanced.clearedOut (tables : TablesOk s) : Balanced s.clearedOut := by
  have noTokens (g : Holding → Nat) (free : ∀ h : Holding, h.state = .free → g h = 0) :
      tableSum g s.clearedOut.holdings = 0 :=
    tableSum_eq_zero g fun e listed => free e.2 (free_of_clearedOut tables listed)
  have figures := figures_clearedOut tables
  refine ⟨⟨fun p => ?_, fun p => ?_, fun p => ?_, fun a listed => ?_⟩, fun p inside => ?_⟩
  · rw [(figures p).1, tokensIn_eq, noTokens _ fun h free => inPool_unnamed (by rw [free]; rfl) p]
  · rw [(figures p).2.1, tokensIn_eq, noTokens _ fun h free => inPool_unnamed (by rw [free]; rfl) p]
  · rw [(figures p).2.2, tokensIn_eq, noTokens _ fun h free => inPool_unnamed (by rw [free]; rfl) p]
  · rw [projectTokens_eq, noTokens _ fun h free => inShare_uncounted (by rw [free]; rfl) _ _]
    rw [clearedOut_allotments] at listed
    obtain ⟨b, -, rfl⟩ := List.mem_map.mp listed
    rfl
  · rw [clearedOut_pool s tables.pools_canonical inside, reserveSum_clearedOut]
    simp [withOver]

/-! ### Every act -/

theorem Dealing.balanced (dealing : Dealing s t) (tables : TablesOk s) (ok : Balanced s) : Balanced t := by
  have aside {u : State} (holdings : u.holdings = s.holdings) (pools : u.pools = s.pools)
      (allotments : u.allotments = s.allotments) : Balanced u := ok.of_same (.of_fields holdings pools allotments)
  cases dealing with
  | shuts => exact aside rfl rfl rfl
  | @takes d _ _ handled => exact handled.balanced (tables.withDeadlines _ _ s.choices) (aside (u := s.taken d) rfl rfl rfl)
  | unlists _ => exact aside rfl rfl rfl
  | unmarks p =>
    refine ok.of_same ⟨rfl, fun k => ?_, rfl⟩
    rw [pool_setPool]
    split
    · rename_i same
      rw [same]
      exact ⟨rfl, rfl, rfl, rfl, rfl⟩
    · exact ⟨rfl, rfl, rfl, rfl, rfl⟩
  | renews _ => exact ok.placeHolding_same tables _ rfl rfl rfl rfl
  | @drops i _ _ =>
    exact ok.rewrite tables (i := i) (h := { s.holding i with refs := (s.holding i).refs - 1 })
      (fun named p _ _ => inPool_of_same rfl rfl rfl named p) (inShare_of_same rfl rfl rfl rfl) rfl rfl rfl
  | lingers _ live => exact ok.moves tables live rfl rfl rfl (.inl ⟨rfl, rfl⟩)
  | converts _ live => exact ok.moves tables live rfl rfl rfl (.inr ⟨rfl, rfl⟩)
  | ends evt counted ends => exact ok.uncount tables evt counted ends
  | @clears i lapsed =>
    have uncounted : (s.holding i).state.counted = false := by
      rw [lapsed tables.holdings_canonical.1]
      rfl
    refine ok.rewrite tables (i := i) (h := Holding.freeEntry (nextGen (s.holding i).gen))
      (fun named p free isLapsed => ?_)
      (fun project pool => ?_) (placeHolding_holdings ..) (placeHolding_pools ..) (placeHolding_allotments ..)
    · rw [inPool_unnamed (h := s.holding i) (by rw [lapsed tables.holdings_canonical.1, isLapsed]),
        inPool_unnamed (h := Holding.freeEntry _) free]
    · rw [inShare_uncounted uncounted]
      rfl
  | cancels _ => exact ok.dequeue ..
  | frees _ => exact ok.placeWaiter ..
  | joins chosen _ _ => exact ok.grantPath tables chosen _
  | @queues f a j wait _ _ _ =>
    have placed := ok.placeWaiter j
      { Waiter.freeEntry (s.waiter j).gen with
        state := .waiting
        feature := a.feature
        user := a.user
        host := a.host
        project := a.project
        seats := a.seats
        cls := a.cls
        deadline := f.clamp (s.siteTime + wait) }
    refine placed.of_same ⟨rfl, fun p => ?_, rfl⟩
    rw [State.queueCheckout, pool_joinQueue]
    split
    · rename_i same
      rw [same]
      exact ⟨rfl, rfl, rfl, rfl, rfl⟩
    · exact ⟨rfl, rfl, rfl, rfl, rfl⟩
  | resizes p capacity borrowCap =>
    have sized (k : Nat) : (s.setPool p { s.pool p with capacity := capacity, borrowCap := borrowCap }).pool k =
        if k = p then { s.pool p with capacity := capacity, borrowCap := borrowCap } else s.pool k := pool_setPool ..
    refine ok.recomputedIf rfl (fun k => ?_) (fun a listed => .inl ⟨a, listed, rfl, rfl, rfl⟩) (fun k other => ?_)
      fun same => ?_
    · rw [sized]
      split
      · rename_i same
        rw [same]
        exact ⟨rfl, rfl, rfl⟩
      · exact ⟨rfl, rfl, rfl⟩
    · exact .of_pool (by rw [sized, if_neg other]) rfl
    · rw [bne_eq_false_iff_eq] at same
      exact ⟨by rw [sized, if_pos rfl, same], by rw [sized, if_pos rfl], by rw [sized, if_pos rfl], rfl⟩
  | @reallots a reserve cap known =>
    obtain ⟨inList, -, -⟩ := allotment_some known
    refine ok.recomputedIf rfl (fun _ => ⟨rfl, rfl, rfl⟩) (fun b listed => .inl ?_) (fun p other => ?_) fun same => ?_
    · obtain ⟨x, inX, rfl⟩ := List.mem_map.mp listed
      refine ⟨x, inX, ?_⟩
      split <;> exact ⟨rfl, rfl, rfl⟩
    · exact .of_pool rfl (reserveSum_changeAllotment (fun _ => rfl) (.inl other))
    · rw [bne_eq_false_iff_eq] at same
      refine .of_pool rfl (reserveSum_changeAllotment (fun _ => rfl) (.inr fun x inX keyed => ?_))
      simp only [Allotment.keyed, Bool.and_eq_true, beq_iff_eq] at keyed
      rw [eq_of_same_key tables inX inList keyed.1 keyed.2, same]
  | @allots a _ _ used =>
    have listed : Balanced (({ s with allotments := s.allotments ++ [a] } : State).recomputedIf a.pool true) := by
      refine ok.recomputedIf rfl (fun _ => ⟨rfl, rfl, rfl⟩) (fun b listed => ?_)
        (fun p other => .of_pool rfl (reserveSum_append s a other)) nofun
      rcases List.mem_append.mp listed with before | new
      · exact .inl ⟨b, before, rfl, rfl, rfl⟩
      · obtain rfl := List.mem_singleton.mp new
        exact .inr used
    exact listed
  | unallots project pool =>
    exact ok.recomputedIf rfl (fun _ => ⟨rfl, rfl, rfl⟩)
      (fun b listed => .inl ⟨b, List.mem_of_mem_filter listed, rfl, rfl, rfl⟩)
      (fun p other => .of_pool rfl (reserveSum_filter s project pool other)) nofun
  | creates _ _ _ _ =>
    exact aside (placeFeature_holdings ..) (placeFeature_pools ..) (placeFeature_allotments ..)
  | updates _ _ => exact aside rfl rfl rfl
  | reclamps _ _ =>
    exact (ok.reclamped tables ..).of_same
      (.of_fields (placeFeature_holdings ..) (placeFeature_pools ..) (placeFeature_allotments ..))
  | @retires code f _ _ =>
    have written : Balanced (s.setFeature code { f with state := .retiring }) := aside rfl rfl rfl
    exact (written.endFeatureWaiters code .retired s.siteTime).drainReport code s.siteTime
  | empties _ => exact .clearedOut tables

theorem Setting.balanced (sets : Setting c s t) (ok : Balanced s) : Balanced t := by
  have aside {u : State} (holdings : u.holdings = s.holdings) (pools : u.pools = s.pools)
      (allotments : u.allotments = s.allotments) : Balanced u := ok.of_same (.of_fields holdings pools allotments)
  cases sets with
  | aside same =>
    exact aside (congrArg State.holdings same :) (congrArg State.pools same :) (congrArg State.allotments same :)
  | resets _ _ =>
    refine ⟨⟨fun _ => rfl, fun _ => rfl, fun _ => rfl, nofun⟩, fun p _ => ?_⟩
    show false = true ↔ 0 < 0 ∨ 0 < 0
    simp
  | divides _ _ => exact aside rfl rfl rfl
  | turns _ _ _ => exact aside rfl rfl rfl
  | stepsTo _ _ => exact aside rfl rfl rfl
  | stepsBack _ _ _ _ _ => exact aside rfl rfl rfl
  | opens _ => exact aside rfl rfl rfl
  | closes => exact aside rfl rfl rfl
  | listsProject _ _ => exact aside rfl rfl rfl
  | unlistsProject _ => exact aside rfl rfl rfl
  | removesUser _ => exact aside rfl rfl rfl
  | definesUser _ _ => exact aside rfl rfl rfl
  | removesHost _ => exact aside rfl rfl rfl
  | definesHost _ _ => exact aside rfl rfl rfl
  | writes _ => exact aside rfl rfl rfl

theorem Deed.balanced (deed : Deed c s t) (tables : TablesOk s) (ok : Balanced s) : Balanced t := by
  cases deed with
  | sets sets => exact sets.balanced ok
  | deals dealing => exact dealing.balanced tables ok

end Sys2Proof.Machine

namespace Sys2Proof.Claims

open Sys2Proof.Machine

/-- Settles O55: every holding that is written is posted by what it adds to each figure, and every change of a used
figure, a capacity or a reserve recomputes the over state of its pool. -/
theorem stepsKeepTheBooksBalanced : Obligations.StepsKeepTheBooksBalanced := by
  intro s t tables _ _ _ _ books states stepped
  obtain ⟨-, booksKept, statesKept⟩ := step_keeps (P := fun u => TablesOk u ∧ Balanced u)
    (fun _ _ _ deed ⟨tables, ok⟩ => ⟨deed.tables tables, deed.balanced tables ok⟩)
    (fun _ _ follows ⟨tables, ok⟩ => ⟨follows.tables tables, follows.balanced tables ok⟩) stepped
    ⟨tables, books, states⟩
  exact ⟨booksKept, statesKept⟩

end Sys2Proof.Claims
end

section
/-! SUPPORT. The handling of what is reached within a step comes to an end, and no deadline is left behind: the proof of
O53. -/

namespace Sys2Proof.Machine

open Sys2Proof.Claims

variable {c : Instr} {s t u : State}

/-! ### The bound on what one step can handle -/

/-- What the bound counts of a holding, a waiter and a feature. -/
def Holding.due (h : Holding) : Nat := if h.state.counted then 1 else 0
def Waiter.due (w : Waiter) : Nat := if w.state == .waiting then 1 else 0
def Feature.due (f : Feature) : Nat := if f.endLodged then 1 else 0

theorem settleBound_eq (s : State) :
    s.settleBound = tableSum Holding.due s.holdings + 3 * tableSum Waiter.due s.waiters
      + tableSum Feature.due s.features + s.atOnce.length := by
  unfold State.settleBound
  rw [length_filter_eq_tableSum (fun h : Holding => h.state.counted), length_filter_eq_tableSum
    (fun w : Waiter => w.state == .waiting), length_filter_eq_tableSum (fun f : Feature => f.endLodged)]
  rfl

/-- The records that carry deadlines, and the deadlines reached. -/
structure SameDue (s t : State) : Prop where
  holdings : t.holdings = s.holdings
  waiters : t.waiters = s.waiters
  features : t.features = s.features
  reached : t.reached = s.reached
  atOnce : t.atOnce = s.atOnce
  siteTime : t.siteTime = s.siteTime

theorem SameDue.trans (first : SameDue s t) (second : SameDue t u) : SameDue s u :=
  ⟨second.1.trans first.1, second.2.trans first.2, second.3.trans first.3, second.4.trans first.4,
    second.5.trans first.5, second.6.trans first.6⟩

theorem SameDue.bound (same : SameDue s t) : t.settleBound = s.settleBound := by
  rw [settleBound_eq, same.1, same.2, same.3, same.5, settleBound_eq]

theorem sameDue_charge (s : State) (pool project cost evt : Nat) : SameDue s (s.charge pool project cost evt) :=
  ⟨rfl, rfl, rfl, rfl, rfl, rfl⟩

theorem sameDue_chargeJoin (s : State) (h : Holding) (cost evt : Nat) : SameDue s (s.chargeJoin h cost evt) := by
  unfold State.chargeJoin
  split
  · exact ⟨rfl, rfl, rfl, rfl, rfl, rfl⟩
  · exact sameDue_charge ..

theorem sameDue_refund (s : State) (h : Holding) (evt : Nat) : SameDue s (s.refund h evt) :=
  ⟨rfl, rfl, rfl, rfl, rfl, rfl⟩

theorem sameDue_setPool (s : State) (p : Nat) (q : Pool) : SameDue s (s.setPool p q) :=
  ⟨rfl, rfl, rfl, rfl, rfl, rfl⟩

theorem length_dueNow_le (now : Nat) (d : Option Deadline) : (dueNow now d).length ≤ d.toList.length :=
  List.length_filter_le _ _

theorem length_holdingDeadline (i : Nat) (h : Holding) : (holdingDeadline (i, h)).toList.length = h.due := by
  unfold holdingDeadline Holding.due
  cases h.state <;> rfl

theorem bound_placeHolding (tables : TablesOk s) (i : Nat) (h : Holding) :
    (s.placeHolding i h).settleBound + (s.holding i).due ≤ s.settleBound + 2 * h.due := by
  have held := tableSum_put Holding.due (d := Holding.initial) rfl tables.holdings_canonical.1 i h
  have made := length_dueNow_le s.siteTime (holdingDeadline (i, h))
  rw [length_holdingDeadline] at made
  have kept := List.length_filter_le (fun d => !d.ofHolding i) s.atOnce
  change tableSum Holding.due (tablePut Holding.initial s.holdings i h) + (s.holding i).due = _ at held
  have same : (s.placeHolding i h).settleBound =
      tableSum Holding.due (tablePut Holding.initial s.holdings i h) + 3 * tableSum Waiter.due s.waiters
        + tableSum Feature.due s.features + (s.atOnce.filter (fun d => !d.ofHolding i)
          ++ dueNow s.siteTime (holdingDeadline (i, h))).length := by
    rw [placeHolding_eq]
    exact settleBound_eq _
  rw [same, settleBound_eq, List.length_append]
  omega

theorem bound_placeWaiter (tables : TablesOk s) (j : Nat) {w : Waiter} (gone : w.state ≠ .waiting) :
    (s.placeWaiter j w).settleBound + 3 * (s.waiter j).due ≤ s.settleBound := by
  have waited := tableSum_put Waiter.due (d := Waiter.initial) rfl tables.waiters_canonical.1 j w
  have none : waiterDeadline (j, w) = none := if_neg gone
  have zero : w.due = 0 := if_neg (by simpa using gone)
  have kept := List.length_filter_le (fun d => !d.ofWaiter j) s.atOnce
  change tableSum Waiter.due (tablePut Waiter.initial s.waiters j w) + (s.waiter j).due = _ at waited
  have same : (s.placeWaiter j w).settleBound =
      tableSum Holding.due s.holdings + 3 * tableSum Waiter.due (tablePut Waiter.initial s.waiters j w)
        + tableSum Feature.due s.features + (s.atOnce.filter (fun d => !d.ofWaiter j)).length := by
    rw [placeWaiter_eq, none, dueNow_none, List.append_nil]
    exact settleBound_eq _
  rw [same, settleBound_eq]
  omega

theorem bound_dequeue (tables : TablesOk s) (pool j : Nat) {w : Waiter} (gone : w.state ≠ .waiting) :
    (s.dequeue pool j w).settleBound + 3 * (s.waiter j).due ≤ s.settleBound := by
  have left := bound_placeWaiter (tables.setPool pool _) j gone (s := s.leaveQueue pool j)
  rwa [(sameDue_setPool s pool _).bound (t := s.leaveQueue pool j)] at left

theorem bound_drain (tables : TablesOk s) (code evt : Nat) : (s.drain code evt).settleBound ≤ s.settleBound := by
  have erased := tableSum_erase Feature.due tables.features_rising code
  have kept := List.length_filter_le (fun d => !d.ofFeature code) s.atOnce
  have same : (s.drain code evt).settleBound = tableSum Holding.due s.holdings + 3 * tableSum Waiter.due s.waiters
      + tableSum Feature.due (tableErase s.features code)
      + (s.atOnce.filter (fun d => !d.ofFeature code)).length := settleBound_eq _
  rw [same, settleBound_eq]
  omega

theorem bound_drainReport (tables : TablesOk s) (code evt : Nat) :
    (s.drainReport code evt).settleBound ≤ s.settleBound := by
  rcases drainReport_cases s code evt with same | ⟨-, -, drained⟩
  · rw [same]
  · rw [drained]
    exact bound_drain tables code evt

theorem bound_uncount (tables : TablesOk s) {i : Nat} {x : Holding} (evt : Nat) (ends : (s.holding i).EndsAs x) :
    (s.uncount i x evt).settleBound ≤ s.settleBound := by
  have placed := bound_placeHolding tables i x
  have zero : x.due = 0 := if_neg (by rw [ends.uncounted]; nofun)
  have refunded := (sameDue_refund (s.placeHolding i x) (s.holding i) evt).bound
  have drained := bound_drainReport ((tables.placeHolding i x).refund (s.holding i) evt) (s.holding i).feature evt
  unfold State.uncount
  omega

theorem bound_endFeatureWaiters (tables : TablesOk s) (code : Nat) (reason : WaiterEnd) (evt : Nat) :
    (s.endFeatureWaiters code reason evt).settleBound ≤ s.settleBound :=
  (endFeatureWaiters_induct (P := fun u => TablesOk u ∧ u.settleBound ≤ s.settleBound)
    (fun u j _ ⟨kept, below⟩ =>
      ⟨kept.dequeue .., ((Nat.le_add_right ..).trans (bound_dequeue kept _ j (w := (u.waiter j).endedAs reason evt) nofun)).trans below⟩)
    ⟨tables, le_refl _⟩).2

theorem bound_setFeature (tables : TablesOk s) {code : Nat} {f : Feature} (known : s.feature code = some f) (g : Feature)
    (lodged : g.due ≤ f.due) : (s.setFeature code g).settleBound ≤ s.settleBound := by
  have written := tableSum_insert Feature.due tables.features_rising code g
  change tableFind s.features code = some f at known
  rw [known, Option.elim_some] at written
  have same : (s.setFeature code g).settleBound = tableSum Holding.due s.holdings + 3 * tableSum Waiter.due s.waiters
      + tableSum Feature.due (tableInsert s.features code g) + s.atOnce.length := settleBound_eq _
  rw [same, settleBound_eq]
  omega

theorem Handled.bound {d : Deadline} (handled : Handled d s t) (tables : TablesOk s) :
    t.settleBound ≤ s.settleBound := by
  cases handled with
  | nothing _ => exact le_refl _
  | holding _ ends => exact bound_uncount tables _ ends
  | waiter _ _ => exact (Nat.le_add_right ..).trans (bound_dequeue tables _ _ nofun)
  | feature _ known =>
    exact (bound_endFeatureWaiters (tables.setFeature ..) ..).trans
      (bound_setFeature tables known _ (Nat.zero_le _))

theorem due_le_one (h : Holding) : h.due ≤ 1 := by
  unfold Holding.due
  split <;> omega

theorem bound_grantPath (tables : TablesOk s) (f : Feature) (a : Asking) (path : Path) (cost i evt : Nat) :
    (s.grantPath f a path cost i evt).settleBound ≤ s.settleBound + 2 := by
  have placed (h : Holding) : (s.placeHolding i h).settleBound ≤ s.settleBound + 2 := by
    have := bound_placeHolding tables i h
    have := due_le_one h
    omega
  cases path with
  | fresh => exact (sameDue_charge ..).bound.trans_le (placed _)
  | merge k => exact (sameDue_chargeJoin ..).bound.trans_le (placed _)
  | reattach k =>
    exact ((sameDue_setPool ..).trans (sameDue_chargeJoin ..)).bound.trans_le (placed _)

theorem bound_grantWaiter (tables : TablesOk s) {j : Nat} {f : Feature} {path : Path} {cost i : Nat}
    (grants : Grants s j f path cost i) (evt : Nat) :
    (s.grantWaiter j f path cost i evt).settleBound ≤ s.settleBound := by
  have made := bound_grantPath tables f (s.waiter j).asking path cost i evt
  have left := bound_dequeue (tables.grantPath f (s.waiter j).asking path cost i evt) f.pool j
    (w := (s.waiter j).grantedAs path i
      ((s.grantPath f (s.waiter j).asking path cost i evt).leaveQueue f.pool j |>.holding i).gen evt) nofun
  have waits : (s.waiter j).due = 1 := if_pos (by simpa using grants.waits)
  rw [waiter_grantPath, waits] at left
  rw [grantWaiter_eq]
  omega

theorem Follows.bound (follows : Follows s t) (tables : TablesOk s) : t.settleBound ≤ s.settleBound := by
  induction follows with
  | done s => exact le_refl _
  | @marks s t mark _ ih =>
    have same : SameDue s { s with starved := mark } := ⟨rfl, rfl, rfl, rfl, rfl, rfl⟩
    exact (ih (tables.of_ledger rfl)).trans same.bound.le
  | grants evt grants _ ih => exact (ih (tables.grantWaiter ..)).trans (bound_grantWaiter tables grants evt)
  | @handles s u t d n _ handled _ ih =>
    have kept := tables.withDeadlines s.reached (s.atOnce.erase d) n
    refine ((ih (handled.tables kept)).trans (handled.bound kept)).trans ?_
    rw [settleBound_eq, settleBound_eq]
    exact Nat.add_le_add_left List.length_erase_le _

/-! ### The handling comes to an end (R132, R139) -/

theorem bound_taken {d : Deadline} (n : Nat) (due : d ∈ s.atOnce) :
    ({ s with atOnce := s.atOnce.erase d, choices := n } : State).settleBound + 1 = s.settleBound := by
  have length := List.length_erase_of_mem due
  have some := List.length_pos_of_mem due
  rw [settleBound_eq, settleBound_eq]
  simp only
  omega

/-- Each deadline that is taken and handled brings the bound down. -/
theorem bound_handle (tables : TablesOk s) {d : Deadline} (took : s.takeDue = some (d, t)) :
    (t.handle d).settleBound < s.settleBound ∧ TablesOk (t.handle d) := by
  obtain ⟨due, n, rfl⟩ := takeDue_some took
  have kept := tables.withDeadlines s.reached (s.atOnce.erase d) n
  obtain ⟨u, handled, follows⟩ := handle_handled { s with atOnce := s.atOnce.erase d, choices := n } d
  have less := bound_taken n due
  have handledTables := handled.tables kept
  have first := handled.bound kept
  have second := follows.bound handledTables
  exact ⟨by omega, follows.tables handledTables⟩

theorem handleLoop_none {take : State → Option (Deadline × State)} {act : State → Deadline → State}
    (idle : take s = none) (n : Nat) : handleLoop take act n s = s := by
  cases n with
  | zero => rfl
  | succ n => rw [handleLoop, idle]

theorem handleLoop_some {take : State → Option (Deadline × State)} {act : State → Deadline → State} {d : Deadline}
    (took : take s = some (d, t)) (n : Nat) : handleLoop take act (n + 1) s = handleLoop take act n (act t d) := by
  rw [handleLoop, took]

/-- A longer run of the handling than the bound comes to the same. -/
theorem handleLoop_enough (tables : TablesOk s) {n : Nat} (enough : s.settleBound ≤ n) :
    handleLoop State.takeDue State.handle n s = s.settle := by
  suffices same : ∀ n m (s : State), TablesOk s → s.settleBound ≤ n → s.settleBound ≤ m →
      handleLoop State.takeDue State.handle n s = handleLoop State.takeDue State.handle m s from
    same n s.settleBound s tables enough (le_refl _)
  intro n
  induction n with
  | zero =>
    intro m s tables none _
    cases took : s.takeDue with
    | none => rw [handleLoop_none took, handleLoop_none took]
    | some pair =>
      have less := (bound_handle tables (d := pair.1) (t := pair.2) took).1
      omega
  | succ n ih =>
    intro m s tables below other
    cases took : s.takeDue with
    | none => rw [handleLoop_none took, handleLoop_none took]
    | some pair =>
      obtain ⟨less, kept⟩ := bound_handle tables (d := pair.1) (t := pair.2) took
      obtain ⟨k, rfl⟩ : ∃ k, m = k + 1 := ⟨m - 1, by omega⟩
      rw [handleLoop_some took, handleLoop_some took]
      exact ih k _ kept (by omega) (by omega)

/-- What is reached is handled one deadline after another, the first of them as `takeDue` takes it. -/
theorem settle_take (tables : TablesOk s) {d : Deadline} (took : s.takeDue = some (d, t)) :
    s.settle = (t.handle d).settle := by
  obtain ⟨less, kept⟩ := bound_handle tables took
  obtain ⟨n, bound⟩ : ∃ n, s.settleBound = n + 1 := ⟨s.settleBound - 1, by omega⟩
  rw [State.settle, bound, handleLoop_some took]
  exact handleLoop_enough kept (by omega)

theorem earliest_ne_nil {ds : List Deadline} (some : ds ≠ []) : earliest ds ≠ [] := by
  obtain ⟨d, first⟩ : ∃ d ∈ ds, ∀ e ∈ ds, d.second ≤ e.second := by
    induction ds with
    | nil => exact absurd rfl some
    | cons d ds ih =>
      by_cases more : ds = []
      · subst more
        exact ⟨d, List.mem_cons_self, fun e listed => by rw [List.mem_singleton.mp listed]⟩
      · obtain ⟨e, listed, least⟩ := ih more
        by_cases sooner : d.second ≤ e.second
        · refine ⟨d, List.mem_cons_self, fun x listed => ?_⟩
          rcases List.mem_cons.mp listed with rfl | listed
          · exact le_refl _
          · exact sooner.trans (least x listed)
        · refine ⟨e, List.mem_cons_of_mem _ listed, fun x listed => ?_⟩
          rcases List.mem_cons.mp listed with rfl | listed
          · omega
          · exact least x listed
  refine List.ne_nil_of_mem (a := d) (List.mem_filter.mpr ⟨first.1, ?_⟩)
  rw [List.all_eq_true]
  exact fun e listed => by simpa using first.2 e listed

theorem takeAmong_none {ds : List Deadline} (none : s.takeAmong ds = none) : ds = [] := by
  unfold State.takeAmong at none
  split at none
  · rfl
  · cases none
  · cases none

theorem takeDue_none (none : s.takeDue = none) : s.atOnce = [] := by
  by_contra some
  exact earliest_ne_nil some (takeAmong_none none)

/-- When the handling has come to its end nothing is left to handle at once. -/
theorem settle_atOnce (tables : TablesOk s) : s.settle.atOnce = [] := by
  obtain ⟨n, bound⟩ : ∃ n, n = s.settleBound := ⟨_, rfl⟩
  induction n using Nat.strong_induction_on generalizing s with
  | _ n ih =>
    cases took : s.takeDue with
    | none =>
      rw [State.settle, handleLoop_none took]
      exact takeDue_none took
    | some pair =>
      obtain ⟨less, kept⟩ := bound_handle tables (d := pair.1) (t := pair.2) took
      rw [settle_take tables (d := pair.1) (t := pair.2) took]
      exact ih _ (bound ▸ less) kept rfl

/-! ### No deadline is left behind (R131, R132) -/

/-- Every deadline that a record carries, but for some, lies ahead of site time or is among those reached. -/
structure TrackedBut (left : Deadline → Prop) (s : State) : Prop where
  tracks : ∀ d, s.Carries d → ¬left d → s.siteTime < d.second ∨ d ∈ s.reached ∨ d ∈ s.atOnce

/-- Every deadline that a record carries lies ahead of site time or is among those reached. -/
abbrev Tracked : State → Prop := TrackedBut fun _ => False

variable {left : Deadline → Prop}

theorem TrackedBut.of_same (ok : TrackedBut left s) (same : SameDue s t) : TrackedBut left t := by
  obtain ⟨holdings, waiters, features, reached, atOnce, siteTime⟩ := same
  refine ⟨fun d carries other => ?_⟩
  rw [siteTime, reached, atOnce]
  refine ok.tracks d ?_ other
  rw [State.Carries, State.holding, State.waiter, holdings, waiters] at carries
  simp only [State.feature, features] at carries
  exact carries

theorem Tracked.of_ledger (ok : Tracked s) (same : t.ledger = s.ledger) : Tracked t :=
  TrackedBut.of_same ok ⟨(congrArg State.holdings same :), (congrArg State.waiters same :),
    (congrArg State.features same :), (congrArg State.reached same :), (congrArg State.atOnce same :),
    (congrArg State.siteTime same :)⟩

theorem ofHolding_of_kind {d : Deadline} {st : HoldingState} (kind : st.deadlineKind = some d.kind) :
    d.ofHolding d.record = true := by
  obtain ⟨second, k, record⟩ := d
  cases st <;> cases kind <;> simp [Deadline.ofHolding]

theorem not_ofHolding {d : Deadline} {i : Nat} (other : d.record ≠ i) : d.ofHolding i = false := by
  simp [Deadline.ofHolding, other]

/-- A record is written and its deadlines withdrawn: what is left untracked is not of that record. -/
theorem TrackedBut.replaces (ok : TrackedBut left s) {named : Deadline → Bool} {made : List Deadline}
    (carried : ∀ d, t.Carries d → d ∈ made ∨ t.siteTime < d.second ∨ (named d = false ∧ s.Carries d))
    (reached : t.reached = s.reached.filter (fun d => !named d))
    (atOnce : t.atOnce = s.atOnce.filter (fun d => !named d) ++ made) (siteTime : t.siteTime = s.siteTime) :
    TrackedBut (fun d => left d ∧ named d = false) t := by
  refine ⟨fun d carries other => ?_⟩
  rcases carried d carries with new | ahead | ⟨unnamed, before⟩
  · exact .inr (.inr (atOnce ▸ List.mem_append_right _ new))
  · exact .inl ahead
  · rcases ok.tracks d before (fun isLeft => other ⟨isLeft, unnamed⟩) with ahead | waits | due
    · exact .inl (siteTime ▸ ahead)
    · exact .inr (.inl (reached ▸ List.mem_filter.mpr ⟨waits, by simp [unnamed]⟩))
    · exact .inr (.inr (atOnce ▸ List.mem_append_left _ (List.mem_filter.mpr ⟨due, by simp [unnamed]⟩)))

theorem mem_dueNow {now : Nat} {o : Option Deadline} {d : Deadline} (made : o = some d) :
    d ∈ dueNow now o ∨ now < d.second := by
  subst made
  by_cases due : d.second ≤ now
  · rw [dueNow_due due]
    exact .inl (List.mem_singleton_self d)
  · exact .inr (Nat.lt_of_not_le due)

theorem TrackedBut.placeHolding (ok : TrackedBut left s) (i : Nat) (h : Holding) :
    TrackedBut (fun d => left d ∧ d.ofHolding i = false) (s.placeHolding i h) := by
  refine ok.replaces (made := dueNow s.siteTime (holdingDeadline (i, h))) (fun d carries => ?_) ?_ ?_ ?_
  · rw [placeHolding_siteTime]
    rcases carries with ⟨kind, second⟩ | ⟨kind, waits⟩ | ⟨kind, lodged⟩
    · rw [holding_placeHolding] at kind second
      by_cases here : d.record = i
      · rw [if_pos here] at kind second
        rcases mem_dueNow (now := s.siteTime) ((holdingDeadline_eq_some (i, h) d).mpr ⟨here.symm, kind, second⟩)
          with due | ahead
        · exact .inl due
        · exact .inr (.inl ahead)
      · rw [if_neg here] at kind second
        exact .inr (.inr ⟨not_ofHolding here, .inl ⟨kind, second⟩⟩)
    · rw [waiter_placeHolding] at waits
      exact .inr (.inr ⟨by simp [Deadline.ofHolding, kind], .inr (.inl ⟨kind, waits⟩)⟩)
    · simp only [feature_placeHolding] at lodged
      exact .inr (.inr ⟨by simp [Deadline.ofHolding, kind], .inr (.inr ⟨kind, lodged⟩)⟩)
  · rw [placeHolding_eq]
  · rw [placeHolding_eq]
  · rw [placeHolding_siteTime]

theorem not_ofWaiter {d : Deadline} {j : Nat} (other : d.record ≠ j) : d.ofWaiter j = false := by
  simp [Deadline.ofWaiter, other]

theorem not_ofFeature {d : Deadline} {code : Nat} (other : d.record ≠ code) : d.ofFeature code = false := by
  simp [Deadline.ofFeature, other]

theorem kind_ne_of_holding {d : Deadline} {st : HoldingState} (kind : st.deadlineKind = some d.kind) :
    d.kind ≠ .waitDeadline ∧ d.kind ≠ .featureEnd := by
  obtain ⟨second, k, record⟩ := d
  cases st <;> cases kind <;> exact ⟨nofun, nofun⟩

theorem TrackedBut.placeWaiter (ok : TrackedBut left s) (j : Nat) (w : Waiter) :
    TrackedBut (fun d => left d ∧ d.ofWaiter j = false) (s.placeWaiter j w) := by
  refine ok.replaces (made := dueNow s.siteTime (waiterDeadline (j, w))) (fun d carries => ?_) ?_ ?_ ?_
  · rw [placeWaiter_siteTime]
    rcases carries with ⟨kind, second⟩ | ⟨kind, waits, second⟩ | ⟨kind, lodged⟩
    · rw [holding_placeWaiter] at kind second
      exact .inr (.inr ⟨by simp [Deadline.ofWaiter, (kind_ne_of_holding kind).1], .inl ⟨kind, second⟩⟩)
    · rw [waiter_placeWaiter] at waits second
      by_cases here : d.record = j
      · rw [if_pos here] at waits second
        rcases mem_dueNow (now := s.siteTime) ((waiterDeadline_eq_some (j, w) d).mpr ⟨here.symm, kind, waits, second⟩)
          with due | ahead
        · exact .inl due
        · exact .inr (.inl ahead)
      · rw [if_neg here] at waits second
        exact .inr (.inr ⟨not_ofWaiter here, .inr (.inl ⟨kind, waits, second⟩)⟩)
    · simp only [feature_placeWaiter] at lodged
      exact .inr (.inr ⟨by simp [Deadline.ofWaiter, kind], .inr (.inr ⟨kind, lodged⟩)⟩)
  · rw [placeWaiter_eq]
  · rw [placeWaiter_eq]
  · rw [placeWaiter_siteTime]

theorem TrackedBut.placeFeature (ok : TrackedBut left s) (code : Nat) (f : Feature) :
    TrackedBut (fun d => left d ∧ d.ofFeature code = false) (s.placeFeature code f) := by
  have time : (s.placeFeature code f).siteTime = s.siteTime := by rw [placeFeature_eq]
  refine ok.replaces (made := dueNow s.siteTime (featureDeadline (code, f.lodged))) (fun d carries => ?_) ?_ ?_ time
  · rw [time]
    rcases carries with ⟨kind, second⟩ | ⟨kind, waits⟩ | ⟨kind, g, found, lodged, ending⟩
    · rw [holding_placeFeature] at kind second
      exact .inr (.inr ⟨by simp [Deadline.ofFeature, (kind_ne_of_holding kind).2], .inl ⟨kind, second⟩⟩)
    · rw [waiter_placeFeature] at waits
      exact .inr (.inr ⟨by simp [Deadline.ofFeature, kind], .inr (.inl ⟨kind, waits⟩)⟩)
    · rw [feature_placeFeature] at found
      by_cases here : d.record = code
      · rw [if_pos here] at found
        cases found
        rcases mem_dueNow (now := s.siteTime)
            ((featureDeadline_eq_some (code, f.lodged) d).mpr ⟨here.symm, kind, lodged, ending⟩) with due | ahead
        · exact .inl due
        · exact .inr (.inl ahead)
      · rw [if_neg here] at found
        exact .inr (.inr ⟨not_ofFeature here, .inr (.inr ⟨kind, g, found, lodged, ending⟩)⟩)
  · rw [placeFeature_eq]
  · rw [placeFeature_eq]

theorem TrackedBut.drain (ok : TrackedBut left s) (code evt : Nat) :
    TrackedBut (fun d => left d ∧ d.ofFeature code = false) (s.drain code evt) := by
  refine ok.replaces (made := []) (fun d carries => .inr (.inr ?_)) rfl (List.append_nil _).symm rfl
  rcases carries with ⟨kind, second⟩ | ⟨kind, waits⟩ | ⟨kind, g, found, lodged⟩
  · exact ⟨by simp [Deadline.ofFeature, (kind_ne_of_holding kind).2], .inl ⟨kind, second⟩⟩
  · exact ⟨by simp [Deadline.ofFeature, kind], .inr (.inl ⟨kind, waits⟩)⟩
  · rw [feature_drain] at found
    split at found
    · cases found
    · rename_i other
      exact ⟨not_ofFeature other, .inr (.inr ⟨kind, g, found, lodged⟩)⟩

/-- A smaller exception is a stronger claim. -/
theorem TrackedBut.weaken {more : Deadline → Prop} (ok : TrackedBut left s) (within : ∀ d, left d → more d) :
    TrackedBut more s := ⟨fun d carries other => ok.tracks d carries (mt (within d) other)⟩

theorem TrackedBut.drainReport (ok : TrackedBut left s) (code evt : Nat) :
    TrackedBut left (s.drainReport code evt) := by
  rcases drainReport_cases s code evt with same | ⟨-, -, drained⟩
  · rw [same]
    exact ok
  · rw [drained]
    exact (ok.drain code evt).weaken fun _ => And.left

theorem TrackedBut.uncount (ok : TrackedBut left s) (i : Nat) (x : Holding) (evt : Nat) :
    TrackedBut (fun d => left d ∧ d.ofHolding i = false) (s.uncount i x evt) :=
  ((ok.placeHolding i x).of_same (sameDue_refund ..)).drainReport _ _

theorem TrackedBut.dequeue (ok : TrackedBut left s) (pool j : Nat) (w : Waiter) :
    TrackedBut (fun d => left d ∧ d.ofWaiter j = false) (s.dequeue pool j w) :=
  TrackedBut.placeWaiter (s := s.leaveQueue pool j) (ok.of_same (sameDue_setPool ..)) j w

theorem TrackedBut.endFeatureWaiters (ok : TrackedBut left s) (code : Nat) (reason : WaiterEnd) (evt : Nat) :
    TrackedBut left (s.endFeatureWaiters code reason evt) :=
  endFeatureWaiters_induct (P := TrackedBut left)
    (fun _ _ _ kept => (kept.dequeue ..).weaken fun _ => And.left) ok

/-- A feature is written without a change of its end instant, lodged only where it was. -/
theorem TrackedBut.setFeature (ok : TrackedBut left s) {code : Nat} {f : Feature} (known : s.feature code = some f)
    {g : Feature} (ending : g.endInstant = f.endInstant) (lodged : g.endLodged = true → f.endLodged = true) :
    TrackedBut left (s.setFeature code g) := by
  refine ⟨fun d carries other => ?_⟩
  refine ok.tracks d ?_ other
  rcases carries with held | waits | ⟨kind, h, found, isLodged, ends⟩
  · exact .inl held
  · exact .inr (.inl waits)
  · rw [feature_setFeature] at found
    split at found
    · rename_i here
      cases found
      exact .inr (.inr ⟨kind, f, here ▸ known, lodged isLodged, ending ▸ ends⟩)
    · exact .inr (.inr ⟨kind, h, found, isLodged, ends⟩)

/-- The owner of a deadline leaves it carried by no record. -/
theorem Handled.tracked {d : Deadline} (handled : Handled d s t) (ok : TrackedBut (fun e => e = d) s) : Tracked t := by
  cases handled with
  | nothing idle =>
    refine ⟨fun e carries _ => ?_⟩
    refine ok.tracks e carries ?_
    rintro rfl
    exact idle carries
  | holding kind _ =>
    refine (ok.uncount ..).weaken fun e ⟨same, other⟩ => ?_
    rw [same, ofHolding_of_kind kind] at other
    cases other
  | waiter kind _ =>
    refine (ok.dequeue ..).weaken fun e ⟨same, other⟩ => ?_
    subst same
    simp [Deadline.ofWaiter, kind] at other
  | @feature f evt kind known =>
    refine TrackedBut.endFeatureWaiters ⟨fun e carries _ => ?_⟩ ..
    rcases carries with held | waits | ⟨isEnd, g, found, lodged, ending⟩
    · refine ok.tracks e (.inl held) ?_
      rintro rfl
      exact (kind_ne_of_holding held.1).2 kind
    · refine ok.tracks e (.inr (.inl waits)) ?_
      rintro rfl
      cases kind.symm.trans waits.1
    · rw [feature_setFeature] at found
      split at found
      · cases found
        cases lodged
      · rename_i other
        refine ok.tracks e (.inr (.inr ⟨isEnd, g, found, lodged, ending⟩)) ?_
        rintro rfl
        exact other rfl

theorem Tracked.placeHolding (ok : Tracked s) (i : Nat) (h : Holding) : Tracked (s.placeHolding i h) :=
  (TrackedBut.placeHolding ok i h).weaken fun _ => And.left

theorem Tracked.dequeue (ok : Tracked s) (pool j : Nat) (w : Waiter) : Tracked (s.dequeue pool j w) :=
  (TrackedBut.dequeue ok pool j w).weaken fun _ => And.left

theorem Tracked.placeWaiter (ok : Tracked s) (j : Nat) (w : Waiter) : Tracked (s.placeWaiter j w) :=
  (TrackedBut.placeWaiter ok j w).weaken fun _ => And.left

theorem Tracked.grantPath (ok : Tracked s) (f : Feature) (a : Asking) (path : Path) (cost i evt : Nat) :
    Tracked (s.grantPath f a path cost i evt) := by
  cases path with
  | fresh => exact TrackedBut.of_same (ok.placeHolding ..) (sameDue_charge ..)
  | merge k => exact TrackedBut.of_same (ok.placeHolding ..) (sameDue_chargeJoin ..)
  | reattach k =>
    exact TrackedBut.of_same (ok.placeHolding ..) ((sameDue_setPool ..).trans (sameDue_chargeJoin ..))

theorem Follows.tracked (follows : Follows s t) (ok : Tracked s) : Tracked t := by
  induction follows with
  | done s => exact ok
  | marks mark _ ih => exact ih (TrackedBut.of_same ok ⟨rfl, rfl, rfl, rfl, rfl, rfl⟩)
  | grants evt _ _ ih => exact ih (Tracked.dequeue (ok.grantPath ..) ..)
  | @handles s u t d n _ handled _ ih =>
    refine ih (handled.tracked ⟨fun e carries other => ?_⟩)
    rcases ok.tracks e carries id with ahead | waits | due
    · exact .inl ahead
    · exact .inr (.inl waits)
    · exact .inr (.inr ((List.mem_erase_of_ne other).mpr due))

theorem Tracked.reclamped (ok : Tracked s) (code : Nat) (new : Feature) : Tracked (s.reclamped code new) := by
  unfold State.reclamped
  split
  · exact reclamp_induct (P := Tracked) (fun _ _ _ _ _ _ _ kept => kept.placeHolding ..)
      (fun _ _ _ _ _ _ _ kept => kept.placeWaiter ..) ok
  · exact ok

theorem Tracked.recomputedIf (ok : Tracked s) (pool : Nat) (recompute : Bool) :
    Tracked (s.recomputedIf pool recompute) := by
  unfold State.recomputedIf
  split
  · exact TrackedBut.of_same ok (sameDue_setPool ..)
  · exact ok

/-- After Clear Holdings the end instants of ACTIVE features alone are carried, and those reached stay reached. -/
theorem Tracked.clearedOut (ok : Tracked s) (tables : TablesOk s) (calm : s.atOnce = []) : Tracked s.clearedOut := by
  refine ⟨fun d carries _ => ?_⟩
  have time := siteTime_of_still (still_clearedOut s)
  rcases carries with ⟨kind, -⟩ | ⟨-, waits, -⟩ | ⟨kind, f, found, lodged, ending⟩
  · rw [clearedOut_holding s tables.holdings_canonical, Holding.cleared] at kind
    split at kind
    · rename_i free
      rw [free] at kind
      cases kind
    · cases kind
  · rw [clearedOut_waiter_state] at waits
    cases waits
  · rw [clearedOut_feature s tables.features_rising, Option.filter_eq_some_iff] at found
    obtain ⟨known, active⟩ := found
    have before : s.Carries d := .inr (.inr ⟨kind, f, known, lodged, ending⟩)
    rcases ok.tracks d before id with ahead | waits | due
    · exact .inl (time ▸ ahead)
    · refine .inr (.inl ?_)
      rw [clearedOut_reached s tables.features_rising]
      refine List.mem_filter.mpr ⟨waits, ?_⟩
      simp [kind, known, by simpa using active]
    · rw [calm] at due
      cases due

theorem Dealing.tracked (dealing : Dealing s t) (tables : TablesOk s) (calm : s.atOnce = []) (ok : Tracked s) :
    Tracked t := by
  have aside {u : State} (same : SameDue s u) : Tracked u := TrackedBut.of_same ok same
  cases dealing with
  | shuts =>
    refine ⟨fun d carries _ => ?_⟩
    rcases ok.tracks d carries id with ahead | waits | due
    · exact .inl ahead
    · exact .inr (.inr (List.mem_append_right _ waits))
    · exact .inr (.inr (List.mem_append_left _ due))
  | @takes d _ _ handled =>
    refine handled.tracked ⟨fun e carries other => ?_⟩
    rcases ok.tracks e carries id with ahead | waits | due
    · exact .inl ahead
    · exact .inr (.inl ((List.mem_erase_of_ne other).mpr waits))
    · exact .inr (.inr due)
  | unlists _ => exact aside ⟨rfl, rfl, rfl, rfl, rfl, rfl⟩
  | unmarks p => exact aside (sameDue_setPool ..)
  | renews _ => exact ok.placeHolding ..
  | @drops i _ _ =>
    refine ⟨fun d carries _ => ?_⟩
    refine ok.tracks d ?_ id
    rcases carries with held | rest
    · rw [holding_setHolding] at held
      split at held
      · rename_i here
        exact .inl (here ▸ held)
      · exact .inl held
    · exact .inr rest
  | lingers _ _ => exact TrackedBut.of_same (ok.placeHolding ..) (sameDue_setPool ..)
  | converts _ _ => exact TrackedBut.of_same (ok.placeHolding ..) (sameDue_setPool ..)
  | ends _ _ _ => exact (TrackedBut.uncount ok ..).weaken fun _ => And.left
  | clears _ => exact ok.placeHolding ..
  | cancels _ => exact ok.dequeue ..
  | frees _ => exact ok.placeWaiter ..
  | joins _ _ _ => exact ok.grantPath ..
  | queues _ _ _ _ => exact TrackedBut.of_same (ok.placeWaiter ..) (sameDue_setPool ..)
  | resizes p capacity borrowCap => exact Tracked.recomputedIf (aside (sameDue_setPool s p _)) ..
  | @reallots a reserve cap _ =>
    have changed : Tracked
        (s.changeAllotment a.project a.pool (fun x => { x with reserve := reserve, cap := cap })) :=
      aside ⟨rfl, rfl, rfl, rfl, rfl, rfl⟩
    exact changed.recomputedIf ..
  | allots _ _ _ => exact aside ⟨rfl, rfl, rfl, rfl, rfl, rfl⟩
  | unallots project pool =>
    have kept : Tracked { s with allotments := s.allotments.filter (fun x => !x.keyed project pool) } :=
      aside ⟨rfl, rfl, rfl, rfl, rfl, rfl⟩
    exact kept.recomputedIf ..
  | creates _ _ _ _ => exact (TrackedBut.placeFeature ok ..).weaken fun _ => And.left
  | @updates code old new replaces same =>
    refine TrackedBut.setFeature ok replaces.found ?_ id
    show new.endDay.map _ = old.endDay.map _
    rw [same]
  | reclamps _ _ => exact (TrackedBut.placeFeature (ok.reclamped ..) ..).weaken fun _ => And.left
  | @retires code f known _ =>
    have written : Tracked (s.setFeature code { f with state := .retiring }) := TrackedBut.setFeature ok known rfl id
    exact (written.endFeatureWaiters ..).drainReport ..
  | empties _ => exact ok.clearedOut tables calm

theorem Setting.tracked (sets : Setting c s t) (tables : TablesOk s) (calm : s.atOnce = []) (ok : Tracked s) :
    Tracked t := by
  have aside {u : State} (same : SameDue s u) : Tracked u := TrackedBut.of_same ok same
  cases sets with
  | aside same => exact ok.of_ledger same
  | resets _ _ =>
    refine ⟨?_⟩
    rintro d (⟨kind, -⟩ | ⟨-, waits, -⟩ | ⟨-, f, found, -⟩) _
    · cases kind
    · cases waits
    · cases found
  | divides _ _ => exact aside ⟨rfl, rfl, rfl, rfl, rfl, rfl⟩
  | turns _ _ taken =>
    refine ⟨fun d carries _ => ?_⟩
    rcases ok.tracks d carries id with ahead | waits | due
    · rcases Nat.lt_or_eq_of_le ahead with later | now
      · exact .inl later
      · exact .inr (.inl (List.mem_filter.mpr ⟨(mem_deadlines_iff tables d).mpr carries, by simpa using now.symm⟩))
    · rw [taken] at waits
      cases waits
    · rw [calm] at due
      cases due
  | @stepsTo v _ _ =>
    refine ⟨fun d carries _ => ?_⟩
    by_cases passed : d.second ≤ v
    · exact .inr (.inr (List.mem_filter.mpr ⟨(mem_deadlines_iff tables d).mpr carries, by simpa using passed⟩))
    · exact .inl (Nat.lt_of_not_le passed)
  | @stepsBack v _ _ below holdings waiters =>
    refine ⟨fun d carries _ => ?_⟩
    rcases carries with ⟨kind, -⟩ | ⟨-, waits, -⟩ | ⟨kind, g, found, lodged, ending⟩
    · change (s.holding d.record).state.deadlineKind = _ at kind
      rw [holding_free_of_holdingsFree holdings] at kind
      cases kind
    · change (s.waiter d.record).state = _ at waits
      rw [waiter_free_of_waitersFree waiters] at waits
      cases waits
    · change tableFind (s.features.map (fun e => (e.1, e.2.lodgedAfter v))) d.record = some g at found
      rw [tableFind_map_second, Option.map_eq_some_iff] at found
      obtain ⟨f, known, rfl⟩ := found
      have same : (f.lodgedAfter v).endInstant = f.endInstant := by
        unfold Feature.lodgedAfter
        split
        · split <;> rfl
        · rfl
      rw [same] at ending
      by_cases ahead : v < d.second
      · exact .inl ahead
      · have unchanged : f.lodgedAfter v = f := by
          simp only [Feature.lodgedAfter, ending]
          exact if_neg ahead
        rw [unchanged] at lodged
        rcases ok.tracks d (.inr (.inr ⟨kind, f, known, lodged, ending⟩)) id with later | reached | due
        · exact .inl (below.trans later)
        · exact .inr (.inl (List.mem_filter.mpr ⟨reached, by simp [ahead]⟩))
        · exact .inr (.inr due)
  | opens _ => exact aside ⟨rfl, rfl, rfl, rfl, rfl, rfl⟩
  | closes => exact aside ⟨rfl, rfl, rfl, rfl, rfl, rfl⟩
  | listsProject _ _ => exact aside ⟨rfl, rfl, rfl, rfl, rfl, rfl⟩
  | unlistsProject _ => exact aside ⟨rfl, rfl, rfl, rfl, rfl, rfl⟩
  | removesUser _ => exact aside ⟨rfl, rfl, rfl, rfl, rfl, rfl⟩
  | definesUser _ _ => exact aside ⟨rfl, rfl, rfl, rfl, rfl, rfl⟩
  | removesHost _ => exact aside ⟨rfl, rfl, rfl, rfl, rfl, rfl⟩
  | definesHost _ _ => exact aside ⟨rfl, rfl, rfl, rfl, rfl, rfl⟩
  | writes _ => exact aside ⟨rfl, rfl, rfl, rfl, rfl, rfl⟩

theorem Deed.tracked (deed : Deed c s t) (tables : TablesOk s) (calm : s.atOnce = []) (ok : Tracked s) : Tracked t := by
  cases deed with
  | sets sets => exact sets.tracked tables calm ok
  | deals dealing => exact dealing.tracked tables calm ok

/-- Between the stretches of a command nothing waits to be handled at once. -/
theorem Link.tracked (link : Link c s t) (tables : TablesOk s) (calm : s.atOnce = []) (ok : Tracked s) :
    TablesOk t ∧ t.atOnce = [] ∧ Tracked t := by
  cases link with
  | quiet deed stays => exact ⟨deed.tables tables, stays calm, deed.tracked tables calm ok⟩
  | @settled u v deed follows =>
    have kept : TablesOk v := follows.tables (deed.tables tables)
    exact ⟨(follows_settle v).tables kept, settle_atOnce kept,
      (follows_settle v).tracked (follows.tracked (deed.tracked tables calm ok))⟩

theorem timelyOk_iff (tables : TablesOk s) : TimelyOk s ↔ s.atOnce = [] ∧ Tracked s := by
  constructor
  · rintro ⟨calm, timely⟩
    exact ⟨calm, ⟨fun d carries _ => (timely d ((mem_deadlines_iff tables d).mpr carries)).imp id .inl⟩⟩
  · rintro ⟨calm, tracked⟩
    refine ⟨calm, fun d lodged => ?_⟩
    rcases tracked.tracks d ((mem_deadlines_iff tables d).mp lodged) id with ahead | waits | due
    · exact .inl ahead
    · exact .inr waits
    · rw [calm] at due
      cases due

end Sys2Proof.Machine

namespace Sys2Proof.Claims

open Sys2Proof.Machine

/-- Settles O53: every act tracks the deadlines that it makes or moves, and each stretch of a command ends with the
handling of what is reached, which the bound brings to its end. -/
theorem stepsLeaveDeadlinesAheadOrReached : Obligations.StepsLeaveDeadlinesAheadOrReached := by
  intro s t tables timely stepped
  rcases step_links stepped with rfl | ⟨c, rest, -, links⟩
  · exact timely
  have kept : TablesOk t ∧ t.atOnce = [] ∧ Tracked t := by
    clear stepped
    induction links with
    | refl => exact ⟨tables, (timelyOk_iff tables).mp timely⟩
    | tail _ link ih =>
      obtain ⟨kept, calm, tracked⟩ := ih
      exact link.tracked kept calm tracked
  exact (timelyOk_iff kept.1).mpr kept.2

end Sys2Proof.Claims
end

section
/-! SUPPORT. The FIFO, the reply queue and the divider are read by no grant, scan, ending or handling of deadlines: each
of these comes to the same whatever stands in them. -/

namespace Sys2Proof.Machine

open Sys2Proof.Claims

/-- Changes to the FIFO, the reply queue and the divider. -/
structure Relinking where
  fifo : List Frame → List Frame := id
  replies : List Frame → List Frame := id
  divider : Nat → Nat := id

/-- A state with its FIFO, reply queue and divider changed. -/
def State.relink (s : State) (l : Relinking) : State :=
  { s with fifo := l.fifo s.fifo, replies := l.replies s.replies, divider := l.divider s.divider }

theorem leaving_eq_relink (s : State) (rest : List Frame) : s.leaving rest = s.relink { fifo := fun _ => rest } := rfl

section Relinked

variable (s : State) (l : Relinking) (i j k p code evt pool project cost : Nat) (h : Holding)
  (w : Waiter) (q : Pool) (f : Feature)

theorem relink_placeHolding : (s.relink l).placeHolding i h = (s.placeHolding i h).relink l := by
  rw [placeHolding_eq, placeHolding_eq]
  rfl

theorem relink_placeWaiter : (s.relink l).placeWaiter j w = (s.placeWaiter j w).relink l := by
  rw [placeWaiter_eq, placeWaiter_eq]
  rfl

theorem relink_placeFeature : (s.relink l).placeFeature code f = (s.placeFeature code f).relink l := by
  rw [placeFeature_eq, placeFeature_eq]
  rfl

theorem relink_setPool : (s.relink l).setPool p q = (s.setPool p q).relink l := rfl

theorem relink_charge : (s.relink l).charge pool project cost evt = (s.charge pool project cost evt).relink l := rfl

theorem relink_refund : (s.relink l).refund h evt = (s.refund h evt).relink l := rfl

theorem relink_chargeJoin : (s.relink l).chargeJoin h cost evt = (s.chargeJoin h cost evt).relink l := by
  unfold State.chargeJoin
  split <;> rfl

theorem relink_drainReport : (s.relink l).drainReport code evt = (s.drainReport code evt).relink l := by
  unfold State.drainReport
  have feature : (s.relink l).feature code = s.feature code := rfl
  have held : (s.relink l).featureHeld code = s.featureHeld code := rfl
  rw [feature, held]
  split
  · split <;> rfl
  · rfl

theorem relink_uncount (x : Holding) : (s.relink l).uncount i x evt = (s.uncount i x evt).relink l := by
  have holding : (s.relink l).holding i = s.holding i := rfl
  rw [State.uncount, State.uncount, holding, relink_placeHolding, relink_refund, relink_drainReport]

theorem relink_dequeue : (s.relink l).dequeue pool j w = (s.dequeue pool j w).relink l :=
  relink_placeWaiter (s.leaveQueue pool j) l j w

theorem relink_endWaiter (reason : WaiterEnd) :
    (s.relink l).endWaiter j reason evt = (s.endWaiter j reason evt).relink l := by
  rw [endWaiter_eq, endWaiter_eq]
  exact relink_dequeue ..

theorem relink_foldl {α : Type} {act : State → α → State} (each : ∀ s a, act (s.relink l) a = (act s a).relink l)
    (list : List α) (s : State) : list.foldl act (s.relink l) = (list.foldl act s).relink l := by
  induction list generalizing s with
  | nil => rfl
  | cons a list ih => rw [List.foldl_cons, List.foldl_cons, each, ih]

theorem relink_endFeatureWaiters (reason : WaiterEnd) :
    (s.relink l).endFeatureWaiters code reason evt = (s.endFeatureWaiters code reason evt).relink l :=
  relink_foldl l (fun _ _ => by
    split
    · exact relink_endWaiter ..
    · rfl) s.waiters s

theorem relink_grantPath (a : Asking) (path : Path) :
    (s.relink l).grantPath f a path cost i evt = (s.grantPath f a path cost i evt).relink l := by
  cases path with
  | fresh =>
    simp only [State.grantPath, State.makeHolding, relink_placeHolding, relink_charge]
    rfl
  | merge k =>
    simp only [State.grantPath, State.mergeHolding, relink_placeHolding, relink_chargeJoin]
    rfl
  | reattach k =>
    have holding : (s.relink l).holding i = s.holding i := rfl
    have lease : (s.relink l).leaseEnd f = s.leaseEnd f := rfl
    have unlingers (u : State) (p tokens : Nat) : (u.relink l).unlinger p tokens = (u.unlinger p tokens).relink l := rfl
    simp only [State.grantPath, State.reattachHolding, holding, lease, relink_placeHolding, unlingers,
      relink_chargeJoin]

theorem relink_grantWaiter (path : Path) :
    (s.relink l).grantWaiter j f path cost i evt = (s.grantWaiter j f path cost i evt).relink l := by
  have waiter : (s.relink l).waiter j = s.waiter j := rfl
  rw [grantWaiter_eq, grantWaiter_eq, waiter, relink_grantPath]
  exact relink_dequeue ..

theorem relink_visit : (s.relink l).visit j = s.visit j := rfl

theorem relink_scanWalk (queue : List Nat) : scanWalk evt queue (s.relink l) = (scanWalk evt queue s).relink l := by
  induction queue generalizing s with
  | nil => rfl
  | cons j rest ih =>
    rw [scanWalk, scanWalk, relink_visit]
    split
    · exact ih s
    · rfl
    · rfl
    · rw [relink_grantWaiter]
      exact ih _

theorem relink_scan : (s.relink l).scan p evt = (s.scan p evt).relink l := by
  have asked : ((s.relink l).service = .opened ∧ ((s.relink l).pool p).isOver = false) =
      (s.service = .opened ∧ (s.pool p).isOver = false) := rfl
  unfold State.scan
  simp only [asked]
  split
  · exact relink_scanWalk ..
  · rfl

theorem relink_takeAmong (ds : List Deadline) :
    (s.relink l).takeAmong ds = (s.takeAmong ds).map (fun e => (e.1, e.2.relink l)) := by
  unfold State.takeAmong
  split <;> rfl

theorem relink_handleLoop {take : State → Option (Deadline × State)} {act : State → Deadline → State}
    (takes : ∀ s, take (s.relink l) = (take s).map (fun e => (e.1, e.2.relink l)))
    (acts : ∀ s d, act (s.relink l) d = (act s d).relink l) (n : Nat) (s : State) :
    handleLoop take act n (s.relink l) = (handleLoop take act n s).relink l := by
  induction n generalizing s with
  | zero => rfl
  | succ n ih =>
    rw [handleLoop, handleLoop, takes]
    cases take s with
    | none => rfl
    | some e =>
      simp only [Option.map_some]
      rw [acts, ih]

theorem relink_lapse (reason : HoldingEnd) : (s.relink l).lapse i reason evt = (s.lapse i reason evt).relink l := by
  rw [lapse_eq, lapse_eq]
  have holding : (s.relink l).holding i = s.holding i := rfl
  rw [holding, relink_uncount, relink_scan]

theorem relink_handleLeaseExpiry : (s.relink l).handleLeaseExpiry i evt = (s.handleLeaseExpiry i evt).relink l := by
  have holding : (s.relink l).holding i = s.holding i := rfl
  have feature : (s.relink l).featureOf (s.holding i).feature = s.featureOf (s.holding i).feature := rfl
  unfold State.handleLeaseExpiry
  simp only [holding, feature]
  split
  · exact relink_lapse ..
  · rfl

theorem relink_settleMade (waiting : List Deadline) :
    (s.relink l).settleMade waiting = (s.settleMade waiting).relink l :=
  relink_handleLoop l (fun _ => relink_takeAmong ..) (fun _ _ => relink_handleLeaseExpiry ..) s.settleBound s

theorem relink_scanAll : (s.relink l).scanAll evt = (s.scanAll evt).relink l := by
  rw [State.scanAll, State.scanAll]
  exact relink_foldl l (act := fun acc p => (acc.scan p evt).settleMade s.atOnce)
    (fun u p => by rw [relink_scan, relink_settleMade]) (List.range Config.pools) s

theorem relink_pass : (s.relink l).pass evt = (s.pass evt).relink l :=
  relink_scanAll { s with starved := false } l evt

theorem relink_entryFreed (asked : Option Nat) :
    (s.relink l).entryFreed asked evt = (s.entryFreed asked evt).relink l := by
  have marked : ((s.relink l).starved = true ∧ (s.relink l).service = .opened) =
      (s.starved = true ∧ s.service = .opened) := rfl
  unfold State.entryFreed
  simp only [marked]
  split
  · exact relink_pass ..
  · split
    · exact relink_scan ..
    · rfl

theorem relink_endHolding : (s.relink l).endHolding i evt = (s.endHolding i evt).relink l := by
  rw [endHolding_eq, endHolding_eq]
  have holding : (s.relink l).holding i = s.holding i := rfl
  rw [holding, relink_uncount, relink_entryFreed]

theorem relink_handle (d : Deadline) : (s.relink l).handle d = (s.handle d).relink l := by
  have holding : (s.relink l).holding d.record = s.holding d.record := rfl
  have waiter : (s.relink l).waiter d.record = s.waiter d.record := rfl
  have feature : (s.relink l).feature d.record = s.feature d.record := rfl
  unfold State.handle
  split
  · exact relink_handleLeaseExpiry ..
  · unfold State.handleLingerEnd
    rw [holding]
    split
    · exact relink_endHolding ..
    · rfl
  · unfold State.handleBorrowEnd
    rw [holding]
    split
    · exact relink_lapse ..
    · rfl
  · simp only [State.handleWaitDeadline, waiter]
    split
    · exact relink_endWaiter ..
    · rfl
  · unfold State.handleFeatureEnd
    rw [feature]
    split
    · rename_i f _
      have written : (s.relink l).setFeature d.record { f with endLodged := false } =
          (s.setFeature d.record { f with endLodged := false }).relink l := rfl
      rw [written, relink_endFeatureWaiters]
    · rfl

theorem relink_settle : (s.relink l).settle = s.settle.relink l :=
  relink_handleLoop l (fun _ => relink_takeAmong ..) (fun _ _ => relink_handle ..) s.settleBound s

theorem relink_recomputedIf (recompute : Bool) :
    (s.relink l).recomputedIf pool recompute = (s.recomputedIf pool recompute).relink l := by
  unfold State.recomputedIf
  split <;> rfl

theorem relink_afterEdit (recompute asked : Bool) :
    (s.relink l).afterEdit pool recompute asked = (s.afterEdit pool recompute asked).relink l := by
  rw [afterEdit_eq, afterEdit_eq, relink_recomputedIf]
  have isOver (u : State) : ((u.relink l).pool pool).isOver = (u.pool pool).isOver := rfl
  have time (u : State) : (u.relink l).siteTime = u.siteTime := rfl
  rw [isOver, isOver]
  split
  · rw [time, relink_scan, relink_settle]
  · rfl

theorem relink_reclamped (new : Feature) : (s.relink l).reclamped code new = (s.reclamped code new).relink l := by
  unfold State.reclamped
  split
  · rename_i e _
    rw [reclamp_eq, reclamp_eq]
    have lowered : (s.relink l).lowerHoldings code e = (s.lowerHoldings code e).relink l :=
      relink_foldl l (fun _ _ => by
        split
        · exact relink_placeHolding ..
        · rfl) s.holdings s
    rw [lowered]
    exact relink_foldl l (fun _ _ => by
      split
      · exact relink_placeWaiter ..
      · rfl) s.waiters _
  · rfl

end Relinked

end Sys2Proof.Machine
end

section
/-! SUPPORT. Charges, refunds and the leaving of the counted states written out: what they come to as one record of
changed fields. -/

namespace Sys2Proof.Machine

open Sys2Proof.Claims

variable {s : State}

/-! ### Accounts (R57, R59) -/

theorem postUsed_written (pool project : Nat) (q : Pool) (g : Nat → Nat) :
    (s.setPool pool q).postUsed project pool g =
      { s with
        pools := tablePut Pool.initial s.pools pool q
        allotments := postedAllotments s.allotments project pool g } :=
  congrArg (fun l => ({ s with pools := tablePut Pool.initial s.pools pool q, allotments := l } : State))
    (postUsed_allotments s pool project g)

theorem charge_written (canonical : TableCanonical Pool.initial s.pools) (pool project c evt : Nat) :
    s.charge pool project c evt =
      { s with
        pools := tablePut Pool.initial s.pools pool (chargedPool (s.pool pool) c (s.reserveSum pool) evt)
        allotments := postedAllotments s.allotments project pool (fun used => used + c) } := by
  rw [charge_eq canonical, recomputed_eq_withOver, postUsed_written]
  rfl

theorem refund_written (canonical : TableCanonical Pool.initial s.pools) (h : Holding) (evt : Nat) :
    s.refund h evt =
      { s with
        pools := tablePut Pool.initial s.pools h.pool
          (refundedPool (s.pool h.pool) h.state h.tokens (s.reserveSum h.pool) evt)
        allotments := postedAllotments s.allotments h.project h.pool (fun used => used - h.tokens) } := by
  rw [refund_eq canonical, recomputed_eq_withOver, postUsed_written]
  rfl

theorem posted_distinct {l : List Allotment} (distinct : (l.map (fun a => (a.project, a.pool))).Nodup)
    (project pool : Nat) (g : Nat → Nat) :
    ((postedAllotments l project pool g).map (fun a => (a.project, a.pool))).Nodup := by
  have keys : (postedAllotments l project pool g).map (fun a => (a.project, a.pool)) =
      l.map (fun a => (a.project, a.pool)) := by
    rw [postedAllotments, List.map_map]
    refine List.map_congr_left fun a _ => ?_
    simp only [Function.comp_apply]
    split <;> rfl
  rwa [keys]

/-! ### Draining (R20, R70) -/

theorem drainReport_stays (rising : TableRising s.holdings) {code : Nat}
    (stays : ∀ f, s.feature code = some f → f.state = .retiring → Held s code) (evt : Nat) :
    s.drainReport code evt = s := by
  rcases drainReport_cases s code evt with same | ⟨⟨f, known, retiring⟩, unheld, -⟩
  · exact same
  · rw [(featureHeld_iff rising code).mpr (stays f known retiring)] at unheld
    cases unheld

theorem drainReport_drains (rising : TableRising s.holdings) {code : Nat} {f : Feature} (known : s.feature code = some f)
    (retiring : f.state = .retiring) (unheld : ¬Held s code) (evt : Nat) :
    s.drainReport code evt = s.drain code evt := by
  have idle : s.featureHeld code = false := Bool.eq_false_iff.mpr fun held => unheld ((featureHeld_iff rising code).mp held)
  rw [State.drainReport, known]
  exact if_pos ⟨retiring, idle⟩

theorem drain_drains (tables : TablesOk s) (calm : s.atOnce = []) (code evt : Nat) :
    Drains s (s.drain code evt) code evt := by
  have joined (d : Drained) : d ∈ (s.drain code evt).drained ↔
      d = { feature := code, eventTime := evt }
        ∨ d ∈ (if 512 ≤ s.drained.length then s.drained.tail else s.drained) := mem_insertDrained ..
  refine ⟨?_, ?_, ?_, ?_, (joined _).mpr (.inl rfl), ?_, ?_, ?_⟩
  · rw [State.drain, State.addDrained, State.removeFeature, withdraw_eq_of_calm calm]
  · rw [feature_drain, if_pos rfl]
  · intro k other
    rw [feature_drain, if_neg other]
  · intro d listed
    by_contra own
    rcases (mem_deadlines_iff (tables.drain code evt) d).mp listed with ⟨kind, -⟩ | ⟨kind, -, -⟩ | ⟨-, f, known, -, -⟩
    · simp only [Deadline.ofFeature, Bool.not_eq_false, Bool.and_eq_true, beq_iff_eq] at own
      rw [own.2] at kind
      revert kind
      cases ((s.drain code evt).holding d.record).state <;> simp [HoldingState.deadlineKind]
    · simp [Deadline.ofFeature, kind] at own
    · simp only [Deadline.ofFeature, Bool.not_eq_false, Bool.and_eq_true, beq_iff_eq] at own
      rw [feature_drain, if_pos own.1] at known
      cases known
  · intro d listed
    exact mem_addDrained (s := s.removeFeature code) listed
  · intro room d listed
    rw [joined, if_neg (Nat.not_le.mpr room)]
    exact .inr listed
  · intro ordered
    exact addDrained_eq_listedWith (s := s.removeFeature code) ordered _

/-! ### A holding that leaves the counted states (R59, R70) -/

theorem uncount_written (canonical : TableCanonical Pool.initial s.pools) {x : Holding} (gone : x.state.counted = false)
    (i evt : Nat) :
    s.uncount i x evt =
      State.drainReport
        { leftCounted s i evt x with atOnce := s.atOnce.filter (fun d => !d.ofHolding i) } (s.holding i).feature evt := by
  have lodgedNone : holdingDeadline (i, x) = none := by
    rw [holdingDeadline, (deadlineKind_none_iff _).mpr gone]
    rfl
  have refunded := refund_written (s := s.placeHolding i x) (by rwa [placeHolding_pools]) (s.holding i) evt
  simp only [pool_placeHolding, reserveSum_placeHolding, placeHolding_pools, placeHolding_allotments] at refunded
  rw [State.uncount, refunded, placeHolding_eq, lodgedNone, dueNow_none, List.append_nil]
  rfl

theorem holding_leftCounted (i k evt : Nat) (x : Holding) :
    (leftCounted s i evt x).holding k = if k = i then x else s.holding k := tableGet_put ..

theorem leftCounted_tables (tables : TablesOk s) (i evt : Nat) {x : Holding} : TablesOk (leftCounted s i evt x) := by
  exact ⟨tables.1, tablePut_canonical tables.2 _ _, tables.3, posted_distinct tables.4 (s.holding i).project (s.holding i).pool
    (fun used => used - (s.holding i).tokens), tables.5, tables.6, tables.7,
    tablePut_canonical tables.8 i x, tables.9⟩

/-- Nothing drains where another counted holding of a RETIRING feature remains. -/
theorem uncount_among (tables : TablesOk s) {x : Holding} (gone : x.state.counted = false) {i : Nat}
    (stays : NoDrain s i) (evt : Nat) :
    s.uncount i x evt = { leftCounted s i evt x with atOnce := s.atOnce.filter (fun d => !d.ofHolding i) } := by
  rw [uncount_written tables.pools_canonical gone]
  refine drainReport_stays
    (s := { leftCounted s i evt x with atOnce := s.atOnce.filter (fun d => !d.ofHolding i) })
    (leftCounted_tables tables i evt (x := x)).holdings_canonical.1 (fun f known retiring => ?_) evt
  obtain ⟨k, other, counted, feature⟩ := stays f known retiring
  have same : (leftCounted s i evt x).holding k = s.holding k :=
    (holding_leftCounted i k evt x).trans (if_neg other)
  exact ⟨k, same ▸ counted, same ▸ feature⟩

theorem uncount_kept (tables : TablesOk s) (calm : s.atOnce = []) {x : Holding} (gone : x.state.counted = false)
    {i : Nat} (stays : NoDrain s i) (evt : Nat) : s.uncount i x evt = leftCounted s i evt x := by
  have idle : s.atOnce.filter (fun d => !d.ofHolding i) = s.atOnce := by rw [calm, List.filter_nil]
  rw [uncount_among tables gone stays, idle]
  rfl

/-- The last counted holding of a RETIRING feature drains it. -/
theorem uncount_drains (tables : TablesOk s) (calm : s.atOnce = []) {x : Holding} (gone : x.state.counted = false)
    {i : Nat} (last : LastOfRetiring s i) (evt : Nat) :
    s.uncount i x evt = (leftCounted s i evt x).drain (s.holding i).feature evt := by
  obtain ⟨⟨f, known, retiring⟩, alone⟩ := last
  have idle : s.atOnce.filter (fun d => !d.ofHolding i) = s.atOnce := by rw [calm, List.filter_nil]
  rw [uncount_written tables.pools_canonical gone, idle]
  refine drainReport_drains (leftCounted_tables tables i evt).holdings_canonical.1 (f := f) known retiring ?_ evt
  rintro ⟨k, counted, feature⟩
  have entry : (leftCounted s i evt x).holding k = if k = i then x else s.holding k := holding_leftCounted ..
  rw [entry] at counted feature
  split at counted
  · rw [gone] at counted
    cases counted
  · rename_i other
    rw [if_neg other] at feature
    exact alone k other counted feature

/-! ### How a holding lapses or is freed (R87, R100, R73) -/

/-- A feature without a record has no end instant. -/
theorem lapseReason_eq (code sec : Nat) :
    (s.featureOf code).lapseReason sec =
      if (s.feature code).bind Feature.endInstant = some sec then .featureEnd else .lease := by
  rw [Feature.lapseReason, State.featureOf]
  cases s.feature code <;> rfl

theorem handleLeaseExpiry_lapses {i : Nat} (live : (s.holding i).state = .live) (sec : Nat) :
    s.handleLeaseExpiry i sec =
      (s.uncount i
        ((s.holding i).lapsedAs
          (if (s.feature (s.holding i).feature).bind Feature.endInstant = some sec then .featureEnd else .lease) sec)
        sec).scan (s.holding i).pool sec := by
  rw [State.handleLeaseExpiry, if_pos live, lapse_eq, lapseReason_eq]

theorem handleBorrowEnd_lapses {i : Nat} (borrowed : (s.holding i).state = .borrowed) (sec : Nat) :
    s.handleBorrowEnd i sec =
      (s.uncount i ((s.holding i).lapsedAs .borrowEnd sec) sec).scan (s.holding i).pool sec := by
  rw [State.handleBorrowEnd, if_pos borrowed, lapse_eq]

theorem handleLingerEnd_frees {i : Nat} (lingering : (s.holding i).state = .lingering) (sec : Nat) :
    s.handleLingerEnd i sec =
      (s.uncount i (Holding.freeEntry (nextGen (s.holding i).gen)) sec).entryFreed (some (s.holding i).pool) sec := by
  rw [State.handleLingerEnd, if_pos lingering, endHolding_eq]

/-! ### Holdings made and joined (R79 to R81, R57) -/

/-- What an asking is granted in an entry (R79, R72). -/
def State.newHolding (s : State) (f : Feature) (a : Asking) (cost i : Nat) : Holding :=
  { gen := if (s.holding i).state = .lapsed then nextGen (s.holding i).gen else (s.holding i).gen
    state := .live
    feature := a.feature
    pool := f.pool
    user := a.user
    host := a.host
    project := a.project
    seats := a.seats
    refs := 1
    tokens := cost
    deadline := s.leaseEnd f
    endReason := none
    eventTime := 0 }

/-- A holding that an asking has joined (R80, R81). -/
def Holding.joinedBy (h : Holding) (seats refs cost lease : Nat) : Holding :=
  { h with state := .live, refs := refs, seats := max h.seats seats, tokens := h.tokens + cost, deadline := lease }

theorem makeHolding_written (canonical : TableCanonical Pool.initial s.pools) (f : Feature) (a : Asking)
    (cost i evt : Nat) :
    s.makeHolding f a cost i evt =
      { s with
        reached := s.reached.filter (fun d => !d.ofHolding i)
        atOnce := s.atOnce.filter (fun d => !d.ofHolding i)
          ++ dueNow s.siteTime (some ⟨s.leaseEnd f, .leaseExpiry, i⟩)
        holdings := tablePut Holding.initial s.holdings i (s.newHolding f a cost i)
        pools := tablePut Pool.initial s.pools f.pool (chargedPool (s.pool f.pool) cost (s.reserveSum f.pool) evt)
        allotments := postedAllotments s.allotments a.project f.pool (fun used => used + cost) } := by
  have made : s.makeHolding f a cost i evt =
      (s.placeHolding i (s.newHolding f a cost i)).charge f.pool a.project cost evt := rfl
  have charged := charge_written (s := s.placeHolding i (s.newHolding f a cost i)) (by rwa [placeHolding_pools]) f.pool
    a.project cost evt
  simp only [pool_placeHolding, reserveSum_placeHolding, placeHolding_pools, placeHolding_allotments] at charged
  rw [made, charged, placeHolding_eq]
  rfl

theorem chargeJoin_written (canonical : TableCanonical Pool.initial s.pools) (h : Holding) (cost evt : Nat) :
    s.chargeJoin h cost evt =
      { s with
        pools := if cost = 0 then s.pools else
          tablePut Pool.initial s.pools h.pool (chargedPool (s.pool h.pool) cost (s.reserveSum h.pool) evt)
        allotments := if cost = 0 then s.allotments else
          postedAllotments s.allotments h.project h.pool (fun used => used + cost) } := by
  unfold State.chargeJoin
  split
  · rfl
  · exact charge_written canonical ..

theorem mergeHolding_written (canonical : TableCanonical Pool.initial s.pools) {i : Nat}
    (live : (s.holding i).state = .live) (f : Feature) (a : Asking) (cost evt : Nat) :
    s.mergeHolding f a cost i evt =
      { s with
        reached := s.reached.filter (fun d => !d.ofHolding i)
        atOnce := s.atOnce.filter (fun d => !d.ofHolding i)
          ++ dueNow s.siteTime (some ⟨s.leaseEnd f, .leaseExpiry, i⟩)
        holdings := tablePut Holding.initial s.holdings i
          ((s.holding i).joinedBy a.seats ((s.holding i).refs + 1) cost (s.leaseEnd f))
        pools := if cost = 0 then s.pools else
          tablePut Pool.initial s.pools (s.holding i).pool
            (chargedPool (s.pool (s.holding i).pool) cost (s.reserveSum (s.holding i).pool) evt)
        allotments := if cost = 0 then s.allotments else
          postedAllotments s.allotments (s.holding i).project (s.holding i).pool (fun used => used + cost) } := by
  obtain ⟨x, made⟩ : ∃ x, x = (s.holding i).joinedBy a.seats ((s.holding i).refs + 1) cost (s.leaseEnd f) := ⟨_, rfl⟩
  have written : { s.holding i with
      refs := (s.holding i).refs + 1, seats := max (s.holding i).seats a.seats, tokens := (s.holding i).tokens + cost,
      deadline := s.leaseEnd f } = x := by
    rw [made, Holding.joinedBy, ← live]
  have lodges : holdingDeadline (i, x) = some ⟨s.leaseEnd f, .leaseExpiry, i⟩ := by
    rw [made]
    rfl
  have charged := chargeJoin_written (s := s.placeHolding i x) (by rwa [placeHolding_pools]) (s.holding i) cost evt
  simp only [pool_placeHolding, reserveSum_placeHolding, placeHolding_pools, placeHolding_allotments] at charged
  rw [State.mergeHolding, written, charged, placeHolding_eq, lodges, made]

theorem reattachHolding_written (canonical : TableCanonical Pool.initial s.pools) (f : Feature) (a : Asking)
    (cost i evt : Nat) :
    s.reattachHolding f a cost i evt =
      { s with
        reached := s.reached.filter (fun d => !d.ofHolding i)
        atOnce := s.atOnce.filter (fun d => !d.ofHolding i)
          ++ dueNow s.siteTime (some ⟨s.leaseEnd f, .leaseExpiry, i⟩)
        holdings := tablePut Holding.initial s.holdings i ((s.holding i).joinedBy a.seats 1 cost (s.leaseEnd f))
        pools :=
          let taken : Pool :=
            { s.pool (s.holding i).pool with
              lingering := (s.pool (s.holding i).pool).lingering - (s.holding i).tokens }
          tablePut Pool.initial s.pools (s.holding i).pool
            (if cost = 0 then taken else chargedPool taken cost (s.reserveSum (s.holding i).pool) evt)
        allotments := if cost = 0 then s.allotments else
          postedAllotments s.allotments (s.holding i).project (s.holding i).pool (fun used => used + cost) } := by
  obtain ⟨x, made⟩ : ∃ x, x = (s.holding i).joinedBy a.seats 1 cost (s.leaseEnd f) := ⟨_, rfl⟩
  obtain ⟨taken, less⟩ : ∃ taken : Pool, taken =
    { s.pool (s.holding i).pool with
      lingering := (s.pool (s.holding i).pool).lingering - (s.holding i).tokens } := ⟨_, rfl⟩
  have reattached : s.reattachHolding f a cost i evt =
      ((s.placeHolding i x).setPool (s.holding i).pool taken).chargeJoin (s.holding i) cost evt := by
    rw [less, ← pool_placeHolding s i (s.holding i).pool x, made]
    rfl
  have lodges : holdingDeadline (i, x) = some ⟨s.leaseEnd f, .leaseExpiry, i⟩ := by
    rw [made]
    rfl
  have charged := chargeJoin_written (s := (s.placeHolding i x).setPool (s.holding i).pool taken)
    (tablePut_canonical (by rwa [placeHolding_pools]) _ _) (s.holding i) cost evt
  have figures : ((s.placeHolding i x).setPool (s.holding i).pool taken).pool (s.holding i).pool = taken := by
    rw [pool_setPool, if_pos rfl]
  have reserves : ((s.placeHolding i x).setPool (s.holding i).pool taken).reserveSum (s.holding i).pool =
      s.reserveSum (s.holding i).pool := by rw [reserveSum_setPool, reserveSum_placeHolding]
  have pools : ((s.placeHolding i x).setPool (s.holding i).pool taken).pools =
      tablePut Pool.initial s.pools (s.holding i).pool taken := by rw [State.setPool, placeHolding_pools]
  rw [reattached, charged, figures, reserves, pools, tablePut_put canonical, ← made, ← less, placeHolding_eq, lodges]
  by_cases free : cost = 0
  · simp only [if_pos free]
    rfl
  · simp only [if_neg free]
    rfl

end Sys2Proof.Machine
end

section
/-! SUPPORT. What a scan does, waiter by waiter: its verdicts in the words of the statements, and the grants it makes
written out. -/

namespace Sys2Proof.Machine

open Sys2Proof.Claims

variable {s t : State} {p j k i evt : Nat} {f : Feature}

/-! ### Grants written out (R117, R118) -/

theorem dequeue_written {w : Waiter} (served : w.state ≠ .waiting) (s : State) (pool j : Nat) :
    s.dequeue pool j w =
      { s with
        reached := s.reached.filter (fun d => !d.ofWaiter j)
        atOnce := s.atOnce.filter (fun d => !d.ofWaiter j)
        waiters := tablePut Waiter.initial s.waiters j w
        pools := tablePut Pool.initial s.pools pool
          { s.pool pool with queue := (s.pool pool).queue.filter (fun m => m != j) } } := by
  have lodgesNone : waiterDeadline (j, w) = none := if_neg served
  rw [State.dequeue, placeWaiter_eq, lodgesNone, dueNow_none, List.append_nil]
  rfl

theorem filter_both (l : List Deadline) (a b : Deadline → Bool) :
    (l.filter (fun d => !a d)).filter (fun d => !b d) = l.filter (fun d => !a d && !b d) := by
  rw [List.filter_filter]
  exact List.filter_congr fun d _ => Bool.and_comm ..

/-- The lease that a grant lodges is no wait deadline. -/
theorem filter_dueNow_lease (now lease i j : Nat) :
    (dueNow now (some ⟨lease, .leaseExpiry, i⟩)).filter (fun d => !d.ofWaiter j) =
      dueNow now (some ⟨lease, .leaseExpiry, i⟩) := by
  rw [List.filter_eq_self]
  intro d due
  obtain rfl : d = ⟨lease, .leaseExpiry, i⟩ := by simpa [dueNow] using (List.mem_filter.mp due).1
  simp [Deadline.ofWaiter]

/-- A waiter granted a new holding. -/
theorem grantWaiter_among (canonical : TableCanonical Pool.initial s.pools) (j k evt : Nat) (f : Feature) :
    s.grantWaiter j f .fresh (f.weight * (s.waiter j).seats) k evt =
      { granted s f.pool j k f evt with
        atOnce := s.atOnce.filter (fun d => !d.ofHolding k && !d.ofWaiter j)
          ++ dueNow s.siteTime (some ⟨s.leaseEnd f, .leaseExpiry, k⟩) } := by
  obtain ⟨u, made⟩ : ∃ u, u = s.makeHolding f (s.waiter j).asking (f.weight * (s.waiter j).seats) k evt := ⟨_, rfl⟩
  have written := made
  rw [makeHolding_written canonical] at written
  have holding : u.holding k = s.newHolding f (s.waiter j).asking (f.weight * (s.waiter j).seats) k := by
    rw [written]
    exact tableGet_put_same ..
  have figures : u.pool f.pool = chargedPool (s.pool f.pool) (f.weight * (s.waiter j).seats) (s.reserveSum f.pool) evt := by
    rw [written]
    exact tableGet_put_same ..
  have granting : s.grantWaiter j f .fresh (f.weight * (s.waiter j).seats) k evt =
      u.dequeue f.pool j ((s.waiter j).grantedAs .fresh k (u.holding k).gen evt) := by
    rw [made]
    rfl
  have served : ((s.waiter j).grantedAs .fresh k (u.holding k).gen evt).state ≠ .waiting := nofun
  rw [granting, dequeue_written served, figures, holding, written]
  simp only [tablePut_put canonical, filter_both, List.filter_append, filter_dueNow_lease]
  rfl

theorem grantWaiter_fresh (canonical : TableCanonical Pool.initial s.pools) (calm : s.atOnce = []) (j k evt : Nat)
    (f : Feature) :
    s.grantWaiter j f .fresh (f.weight * (s.waiter j).seats) k evt =
      { granted s f.pool j k f evt with
        atOnce := dueNow s.siteTime (some ⟨s.leaseEnd f, .leaseExpiry, k⟩) } := by
  rw [grantWaiter_among canonical, calm, List.filter_nil, List.nil_append]

/-- A waiter granted by a merge. -/
theorem grantWaiter_merge (canonical : TableCanonical Pool.initial s.pools) (calm : s.atOnce = [])
    (live : (s.holding i).state = .live) (pooled : (s.holding i).pool = f.pool) (j m evt : Nat) :
    s.grantWaiter j f (.merge m) (f.weight * ((s.waiter j).seats - (s.holding i).seats)) i evt =
      { joined s f.pool j i f evt with
        atOnce := dueNow s.siteTime (some ⟨s.leaseEnd f, .leaseExpiry, i⟩) } := by
  obtain ⟨cost, price⟩ : ∃ cost, cost = f.weight * ((s.waiter j).seats - (s.holding i).seats) := ⟨_, rfl⟩
  obtain ⟨u, made⟩ : ∃ u, u = s.mergeHolding f (s.waiter j).asking cost i evt := ⟨_, rfl⟩
  have written := made
  rw [mergeHolding_written canonical live, pooled] at written
  have holding : u.holding i =
      (s.holding i).joinedBy (s.waiter j).asking.seats ((s.holding i).refs + 1) cost (s.leaseEnd f) := by
    rw [written]
    exact tableGet_put_same ..
  have figures : u.pool f.pool =
      if cost = 0 then s.pool f.pool else chargedPool (s.pool f.pool) cost (s.reserveSum f.pool) evt := by
    rw [written, State.pool]
    split
    · rfl
    · exact tableGet_put_same ..
  have granting : s.grantWaiter j f (.merge m) cost i evt =
      u.dequeue f.pool j ((s.waiter j).grantedAs (.merge m) i (u.holding i).gen evt) := by
    rw [made]
    rfl
  have served : ((s.waiter j).grantedAs (.merge m) i (u.holding i).gen evt).state ≠ .waiting := nofun
  have kept : (s.holding i).state ≠ .lingering := by rw [live]; nofun
  rw [← price, granting, dequeue_written served, figures, holding, written, calm]
  unfold joined
  simp only [filter_both, List.filter_nil, List.nil_append, filter_dueNow_lease, ← price, if_neg kept]
  by_cases free : cost = 0
  · simp only [if_pos free]
    rfl
  · simp only [if_neg free, tablePut_put canonical]
    rfl

/-- A waiter granted by a reattach. -/
theorem grantWaiter_reattach (canonical : TableCanonical Pool.initial s.pools) (calm : s.atOnce = [])
    (lingering : (s.holding i).state = .lingering) (pooled : (s.holding i).pool = f.pool) (j m evt : Nat) :
    s.grantWaiter j f (.reattach m) (f.weight * ((s.waiter j).seats - (s.holding i).seats)) i evt =
      { joined s f.pool j i f evt with
        atOnce := dueNow s.siteTime (some ⟨s.leaseEnd f, .leaseExpiry, i⟩) } := by
  obtain ⟨cost, price⟩ : ∃ cost, cost = f.weight * ((s.waiter j).seats - (s.holding i).seats) := ⟨_, rfl⟩
  obtain ⟨u, made⟩ : ∃ u, u = s.reattachHolding f (s.waiter j).asking cost i evt := ⟨_, rfl⟩
  have written := made
  rw [reattachHolding_written canonical, pooled] at written
  have holding : u.holding i = (s.holding i).joinedBy (s.waiter j).asking.seats 1 cost (s.leaseEnd f) := by
    rw [written]
    exact tableGet_put_same ..
  have figures : u.pool f.pool =
      let taken : Pool :=
        { s.pool f.pool with lingering := (s.pool f.pool).lingering - (s.holding i).tokens }
      if cost = 0 then taken else chargedPool taken cost (s.reserveSum f.pool) evt := by
    rw [written]
    exact tableGet_put_same ..
  have granting : s.grantWaiter j f (.reattach m) cost i evt =
      u.dequeue f.pool j ((s.waiter j).grantedAs (.reattach m) i (u.holding i).gen evt) := by
    rw [made]
    rfl
  have served : ((s.waiter j).grantedAs (.reattach m) i (u.holding i).gen evt).state ≠ .waiting := nofun
  rw [← price, granting, dequeue_written served, figures, holding, written, calm]
  unfold joined
  simp only [filter_both, List.filter_nil, List.nil_append, filter_dueNow_lease, ← price, if_pos lingering,
    tablePut_put canonical]
  by_cases free : cost = 0
  · simp only [if_pos free]
    rfl
  · simp only [if_neg free]
    rfl

/-! ### The verdicts of a scan (R114 to R116) -/

theorem ended_iff (f : Feature) (now : Nat) : f.ended now = true ↔ ∃ d, f.endDay = some d ∧ (d + 1) * 86400 ≤ now := by
  rw [Feature.ended, Feature.endInstant]
  cases f.endDay <;> simp [Config.daySeconds]

theorem visit_passedOver (passed : PassedOver s p j) : s.visit j = .passOver := by
  obtain ⟨f, waits, known, rfl, reason⟩ := passed
  rw [State.visit, known]
  simp only [waits, ne_eq, not_true_eq_false, if_false]
  by_cases ended : f.ended s.siteTime = true
  · rw [if_pos ended]
  rw [if_neg ended]
  by_cases full : s.referencesFull (s.choosePath f.sharing (s.waiter j).asking) = true
  · rw [if_pos full]
  rw [if_neg full]
  refine if_pos ?_
  rcases reason with ending | ⟨i, path, most⟩ | ⟨cost, capped⟩
  · exact absurd ((ended_iff ..).mpr ending) ended
  · rw [path] at full
    exact absurd (decide_eq_true most) full
  · exact ⟨cost, (capExceeded_iff ..).mpr capped⟩

/-- What is left of the visit of a waiter that passes the first tests. -/
theorem visit_passes (passes : PassesTests s p j f) :
    s.visit j =
      if s.headroom p (s.waiter j).project < scanCost s j f then .stop
      else (s.pathEntry (s.choosePath f.sharing (s.waiter j).asking)).elim .starve
        (.grant f (s.choosePath f.sharing (s.waiter j).asking) (scanCost s j f)) := by
  obtain ⟨waits, known, rfl, licensed, references, cap⟩ := passes
  have lasting : ¬f.ended s.siteTime = true := by
    rw [ended_iff]
    rintro ⟨d, ending, past⟩
    exact absurd (licensed d ending) (Nat.not_lt.mpr past)
  have room : ¬s.referencesFull (s.choosePath f.sharing (s.waiter j).asking) = true := by
    cases path : s.choosePath f.sharing (s.waiter j).asking with
    | merge i => simpa [State.referencesFull, Config.fullReferences] using references i path
    | fresh => nofun
    | reattach i => nofun
  have fits : ¬(scanCost s j f ≠ 0 ∧ s.capExceeded f.pool (s.waiter j).project (scanCost s j f) = true) := by
    rintro ⟨priced, exceeds⟩
    obtain ⟨a, most, listed, capped, beyond⟩ := (capExceeded_iff ..).mp exceeds
    exact absurd (cap a most priced listed capped) (Nat.not_le.mpr beyond)
  rw [State.visit, known]
  refine (if_neg (not_not.mpr waits)).trans ((if_neg lasting).trans ((if_neg room).trans ((if_neg fits).trans ?_)))
  refine if_congr Iff.rfl rfl ?_
  cases s.pathEntry (s.choosePath f.sharing (s.waiter j).asking) <;> rfl

/-! ### Grants whose lease lies ahead -/

theorem granted_calm (calm : s.atOnce = []) : (granted s p j k f evt).atOnce = [] := calm

theorem joined_calm (calm : s.atOnce = []) : (joined s p j i f evt).atOnce = [] := calm

theorem eq_of_calm (calm : s.atOnce = []) : { s with atOnce := [] } = s := by rw [← calm]

theorem grantWaiter_makes (tables : TablesOk s) (calm : s.atOnce = []) (ahead : s.siteTime < s.leaseEnd f) (j k evt : Nat) :
    s.grantWaiter j f .fresh (f.weight * (s.waiter j).seats) k evt = granted s f.pool j k f evt := by
  rw [grantWaiter_fresh tables.pools_canonical calm, dueNow_ahead ahead, eq_of_calm (granted_calm calm)]

theorem grantWaiter_merges (tables : TablesOk s) (calm : s.atOnce = []) (ahead : s.siteTime < s.leaseEnd f)
    (live : (s.holding i).state = .live) (pooled : (s.holding i).pool = f.pool) (j m evt : Nat) :
    s.grantWaiter j f (.merge m) (f.weight * ((s.waiter j).seats - (s.holding i).seats)) i evt =
      joined s f.pool j i f evt := by
  rw [grantWaiter_merge tables.pools_canonical calm live pooled, dueNow_ahead ahead, eq_of_calm (joined_calm calm)]

theorem grantWaiter_reattaches (tables : TablesOk s) (calm : s.atOnce = []) (ahead : s.siteTime < s.leaseEnd f)
    (lingering : (s.holding i).state = .lingering) (pooled : (s.holding i).pool = f.pool) (j m evt : Nat) :
    s.grantWaiter j f (.reattach m) (f.weight * ((s.waiter j).seats - (s.holding i).seats)) i evt =
      joined s f.pool j i f evt := by
  rw [grantWaiter_reattach tables.pools_canonical calm lingering pooled, dueNow_ahead ahead,
    eq_of_calm (joined_calm calm)]

/-! ### A walk down a queue (R114 to R117) -/

theorem scanWalk_passes (passed : s.visit j = .passOver) (evt : Nat) (more : List Nat) :
    scanWalk evt (j :: more) s = scanWalk evt more s := by rw [scanWalk, passed]

theorem scanWalk_stops (stops : s.visit j = .stop) (evt : Nat) (more : List Nat) :
    scanWalk evt (j :: more) s = s := by rw [scanWalk, stops]

theorem scanWalk_starves (starves : s.visit j = .starve) (evt : Nat) (more : List Nat) :
    scanWalk evt (j :: more) s = { s with starved := true } := by rw [scanWalk, starves]

theorem scanWalk_grants {path : Path} {cost : Nat} (grants : s.visit j = .grant f path cost i) (evt : Nat)
    (more : List Nat) :
    scanWalk evt (j :: more) s = scanWalk evt more (s.grantWaiter j f path cost i evt) := by rw [scanWalk, grants]

theorem visit_stops (passes : PassesTests s p j f)
    (dear : s.headroom p (s.waiter j).project < scanCost s j f) : s.visit j = .stop := by
  rw [visit_passes passes, if_pos dear]

theorem visit_starves (passes : PassesTests s p j f)
    (afforded : scanCost s j f ≤ s.headroom p (s.waiter j).project)
    (fresh : s.choosePath f.sharing (s.waiter j).asking = .fresh) (full : s.allocate = none) : s.visit j = .starve := by
  rw [visit_passes passes, if_neg (Nat.not_lt.mpr afforded), fresh, State.pathEntry, full]
  rfl

theorem visit_makes (passes : PassesTests s p j f)
    (afforded : scanCost s j f ≤ s.headroom p (s.waiter j).project)
    (fresh : s.choosePath f.sharing (s.waiter j).asking = .fresh) (entry : s.allocate = some k) :
    s.visit j = .grant f .fresh (f.weight * (s.waiter j).seats) k := by
  rw [visit_passes passes, if_neg (Nat.not_lt.mpr afforded), scanCost, fresh, State.pathEntry, entry]
  rfl

theorem visit_merges (passes : PassesTests s p j f)
    (afforded : scanCost s j f ≤ s.headroom p (s.waiter j).project)
    (merge : s.choosePath f.sharing (s.waiter j).asking = .merge i) :
    s.visit j = .grant f (.merge i) (f.weight * ((s.waiter j).seats - (s.holding i).seats)) i := by
  rw [visit_passes passes, if_neg (Nat.not_lt.mpr afforded), scanCost, merge]
  rfl

theorem visit_reattaches (passes : PassesTests s p j f)
    (afforded : scanCost s j f ≤ s.headroom p (s.waiter j).project)
    (reattach : s.choosePath f.sharing (s.waiter j).asking = .reattach i) :
    s.visit j = .grant f (.reattach i) (f.weight * ((s.waiter j).seats - (s.holding i).seats)) i := by
  rw [visit_passes passes, if_neg (Nat.not_lt.mpr afforded), scanCost, reattach]
  rfl

/-- What a scan of a queue comes to in the model is what the statements say of it. -/
theorem scans_walk {queue : List Nat} (scans : Scans p evt queue s t) (tables : TablesOk s) (calm : s.atOnce = []) :
    scanWalk evt queue s = t ∧ TablesOk t ∧ t.atOnce = [] := by
  induction scans with
  | finished s => exact ⟨rfl, tables, calm⟩
  | passesOver passed _ ih =>
    rw [scanWalk_passes (visit_passedOver passed)]
    exact ih tables calm
  | heldBack passes dear => exact ⟨scanWalk_stops (visit_stops passes dear) .., tables, calm⟩
  | starves passes afforded fresh full =>
    exact ⟨scanWalk_starves (visit_starves passes afforded fresh full) .., tables.of_ledger rfl, calm⟩
  | makes passes afforded fresh entry ahead _ ih =>
    obtain rfl := passes.pooled
    have grant := grantWaiter_makes tables calm ahead
    rw [scanWalk_grants (visit_makes passes afforded fresh entry), grant]
    exact ih (grant .. ▸ tables.grantWaiter ..) (granted_calm calm)
  | merges passes afforded merge live pooled ahead _ ih =>
    obtain rfl := passes.pooled
    have grant := grantWaiter_merges tables calm ahead live pooled
    rw [scanWalk_grants (visit_merges passes afforded merge), grant]
    exact ih (grant _ 0 _ ▸ tables.grantWaiter ..) (joined_calm calm)
  | reattaches passes afforded reattach lingering pooled ahead _ ih =>
    obtain rfl := passes.pooled
    have grant := grantWaiter_reattaches tables calm ahead lingering pooled
    rw [scanWalk_grants (visit_reattaches passes afforded reattach), grant]
    exact ih (grant _ 0 _ ▸ tables.grantWaiter ..) (joined_calm calm)

/-! ### One deadline reached at once -/

theorem earliest_one (d : Deadline) : earliest [d] = [d] := by simp [earliest]

theorem settle_one (tables : TablesOk s) (calm : s.atOnce = []) {d : Deadline} (done : (s.handle d).atOnce = []) :
    State.settle { s with atOnce := [d] } = s.handle d := by
  have took : State.takeDue { s with atOnce := [d] } = some (d, s) := by
    rw [State.takeDue, earliest_one, State.takeAmong]
    simp only [List.erase_cons_head, eq_of_calm calm]
  rw [settle_take (tables.withDeadlines s.reached [d] s.choices) took, settle_none done]

theorem settleMade_one (calm : s.atOnce = []) {second record : Nat}
    (done : (s.handleLeaseExpiry record second).atOnce = []) :
    State.settleMade [] { s with atOnce := [⟨second, .leaseExpiry, record⟩] } = s.handleLeaseExpiry record second := by
  have took : State.takeMade [] { s with atOnce := [⟨second, .leaseExpiry, record⟩] } =
      some (⟨second, .leaseExpiry, record⟩, s) := by
    have only : (earliest [(⟨second, .leaseExpiry, record⟩ : Deadline)]).filter
        (fun d => d.kind == .leaseExpiry && !List.contains [] d) = [⟨second, .leaseExpiry, record⟩] := by
      rw [earliest_one]
      rfl
    rw [State.takeMade, only, State.takeAmong]
    simp only [List.erase_cons_head, eq_of_calm calm]
  have idle : State.takeMade [] (s.handleLeaseExpiry record second) = none := by
    rw [State.takeMade, done]
    rfl
  obtain ⟨n, bound⟩ : ∃ n, State.settleBound { s with atOnce := [⟨second, .leaseExpiry, record⟩] } = n + 1 :=
    ⟨_, rfl⟩
  rw [State.settleMade, bound, handleLoop_some took, handleLoop_none idle]

/-! ### Scans that are asked for (R113, R119) -/

theorem scan_runs (opened : s.service = .opened) (notOver : (s.pool p).isOver = false) (evt : Nat) :
    s.scan p evt = scanWalk evt (s.pool p).queue s := if_pos ⟨opened, notOver⟩

theorem scan_idle (idle : s.service = .closed ∨ (s.pool p).isOver = true) (evt : Nat) : s.scan p evt = s := by
  refine if_neg ?_
  rintro ⟨opened, notOver⟩
  rcases idle with closed | isOver
  · rw [closed] at opened
    cases opened
  · rw [isOver] at notOver
    cases notOver

theorem waiter_granted_feature (m : Nat) :
    ((granted s p j k f evt).holding k).feature = (s.waiter j).feature ∧
      ((granted s p j k f evt).holding k).state = .live ∧ ((granted s p j k f evt).holding k).pool = p ∧
      ((granted s p j k f evt).pool p).queue = (s.pool p).queue.filter (fun m => m != j) ∧
      (granted s p j k f evt).feature m = s.feature m := by
  have holding : (granted s p j k f evt).holding k = _ := tableGet_put_same ..
  have pool : (granted s p j k f evt).pool p = _ := tableGet_put_same ..
  rw [holding, pool]
  exact ⟨rfl, rfl, rfl, rfl, rfl⟩

/-- A new holding whose lease is reached at once lapses, and the scan of its pool finds an empty queue. -/
theorem handle_grantedAtOnce (tables : TablesOk s) (calm : s.atOnce = []) (serves : ServesAtOnce s p j k f)
    (evt : Nat) :
    (granted s p j k f evt).handleLeaseExpiry k (s.leaseEnd f) = grantedAndLapsed s p j k f evt
      ∧ TablesOk (granted s p j k f evt) := by
  obtain ⟨queued, active, tests, afforded, fresh, entry, lease⟩ := serves
  obtain ⟨waits, known, rfl, licensed, -, -⟩ := tests
  obtain ⟨feature, live, pooled, queue, features⟩ :=
    waiter_granted_feature (s := s) (p := f.pool) (j := j) (k := k) (f := f) (evt := evt) (s.waiter j).feature
  have grown := grantWaiter_fresh tables.pools_canonical calm j k evt f
  obtain ⟨g, made⟩ : ∃ g, g = granted s f.pool j k f evt := ⟨_, rfl⟩
  have gTables : TablesOk g := by
    rw [made, ← eq_of_calm (granted_calm (p := f.pool) (j := j) (k := k) (f := f) (evt := evt) calm)]
    have tables := tables.grantWaiter j f .fresh (f.weight * (s.waiter j).seats) k evt
    rw [grown] at tables
    exact tables.withDeadlines _ [] _
  have gCalm : g.atOnce = [] := made ▸ calm
  rw [grantedAndLapsed]
  simp only [← made] at *
  have lasting : ¬(g.feature (g.holding k).feature).bind Feature.endInstant = some (s.leaseEnd f) := by
    rw [feature, features, known, Option.bind_some, Feature.endInstant]
    intro ending
    obtain ⟨d, ending, same⟩ := Option.map_eq_some_iff.mp ending
    have ahead := licensed d ending
    have now : s.leaseEnd f ≤ s.siteTime := lease
    rw [← same] at now
    exact absurd ahead (Nat.not_lt.mpr now)
  have stays : NoDrain g k := by
    intro r record retiring
    rw [feature, features, known] at record
    obtain rfl : f = r := Option.some.inj record
    rw [active] at retiring
    cases retiring
  refine ⟨?_, gTables⟩
  have figures : (leftCounted g k (s.leaseEnd f) ((g.holding k).lapsedAs .lease (s.leaseEnd f))).pool
      (g.holding k).pool = _ := tableGet_put_same ..
  have before : (g.pool (g.holding k).pool).queue = [] := by
    rw [pooled, queue, queued]
    simp
  have empty : ((leftCounted g k (s.leaseEnd f) ((g.holding k).lapsedAs .lease (s.leaseEnd f))).pool
      (g.holding k).pool).queue = [] := by
    rw [figures]
    exact before
  rw [handleLeaseExpiry_lapses live, if_neg lasting, uncount_kept gTables gCalm rfl stays]
  exact scan_empty empty _

/-- What a scan that is asked for comes to, with the leases that it makes and that are reached at once. -/
theorem scanned_scan (scanned : Scanned s p evt t) (tables : TablesOk s) (calm : s.atOnce = []) :
    (s.scan p evt).settle = t ∧ (s.scan p evt).settleMade [] = t ∧ TablesOk t ∧ t.atOnce = [] := by
  by_cases idle : s.service = .closed ∨ (s.pool p).isOver = true
  · obtain rfl := scanned.2 idle
    rw [scan_idle idle]
    exact ⟨settle_none calm, settleMade_waited (by rw [calm]; nofun), tables, calm⟩
  have opened : s.service = .opened := by
    cases service : s.service with
    | opened => rfl
    | closed => exact absurd (.inl service) idle
  have notOver : (s.pool p).isOver = false := Bool.eq_false_iff.mpr fun isOver => idle (.inr isOver)
  rw [scan_runs opened notOver]
  rcases scanned.1 opened notOver with scans | ⟨j, k, f, serves, rfl⟩
  · obtain ⟨walks, tables, calm⟩ := scans_walk scans tables calm
    rw [walks]
    exact ⟨settle_none calm, settleMade_waited (by rw [calm]; nofun), tables, calm⟩
  · obtain ⟨lapses, gTables⟩ := handle_grantedAtOnce tables calm serves evt
    have gCalm := granted_calm (p := p) (j := j) (k := k) (f := f) (evt := evt) calm
    have done : (grantedAndLapsed s p j k f evt).atOnce = [] := calm
    have due : s.leaseEnd f ≤ s.siteTime := serves.lease
    have walks : scanWalk evt (s.pool p).queue s =
        { granted s p j k f evt with atOnce := [⟨s.leaseEnd f, .leaseExpiry, k⟩] } := by
      rw [serves.queued, scanWalk_grants (visit_makes serves.tests serves.afforded serves.fresh serves.entry),
        grantWaiter_fresh tables.pools_canonical calm, dueNow_due due, serves.tests.pooled]
      rfl
    rw [walks]
    refine ⟨?_, ?_, leftCounted_tables gTables .., done⟩
    · have handled : (granted s p j k f evt).handle ⟨s.leaseEnd f, .leaseExpiry, k⟩ = _ := lapses
      exact (settle_one gTables gCalm (handled ▸ done)).trans handled
    · exact (settleMade_one gCalm (lapses ▸ done)).trans lapses

theorem foldl_range_steps {α : Type} {act : α → Nat → α} {u : Nat → α} {n : Nat}
    (steps : ∀ p, p < n → act (u p) p = u (p + 1)) : (List.range n).foldl act (u 0) = u n := by
  induction n with
  | zero => rfl
  | succ n ih =>
    rw [List.range_succ, List.foldl_append, ih fun p below => steps p (by omega), List.foldl_cons, List.foldl_nil]
    exact steps n (by omega)

theorem passMade_pass (made : PassMade s evt t) (tables : TablesOk s) (calm : s.atOnce = []) :
    s.pass evt = t ∧ TablesOk t ∧ t.atOnce = [] := by
  obtain ⟨u, first, last, scanned⟩ := made
  have kept : ∀ p, p ≤ 64 → TablesOk (u p) ∧ (u p).atOnce = [] := by
    intro p
    induction p with
    | zero =>
      intro _
      rw [first]
      exact ⟨tables.of_ledger rfl, calm⟩
    | succ p ih =>
      intro below
      obtain ⟨tables, calm⟩ := ih (by omega)
      exact (scanned_scan (scanned p (by omega)) tables calm).2.2
  have steps : ∀ p, p < 64 → ((u p).scan p evt).settleMade [] = u (p + 1) := fun p below =>
    (scanned_scan (scanned p below) (kept p (by omega)).1 (kept p (by omega)).2).2.1
  have passes := foldl_range_steps (act := fun (acc : State) p => (acc.scan p evt).settleMade []) steps
  refine ⟨?_, last ▸ kept 64 (le_refl _)⟩
  rw [State.pass, State.scanAll, ← first, ← last, ← passes, (kept 0 (by omega)).2]

theorem freedScanned_freed (freed : FreedScanned s p evt t) (tables : TablesOk s) (calm : s.atOnce = []) :
    (s.entryFreed (some p) evt).settle = t ∧ TablesOk t ∧ t.atOnce = [] := by
  unfold State.entryFreed
  split
  · rename_i marked
    obtain ⟨passes, tables, calm⟩ := passMade_pass (freed.1 marked.1 marked.2) tables calm
    rw [passes]
    exact ⟨settle_none calm, tables, calm⟩
  · rename_i unmarked
    have asked : s.starved = false ∨ s.service = .closed := by
      cases mark : s.starved with
      | false => exact .inl rfl
      | true =>
        cases service : s.service with
        | closed => exact .inr rfl
        | opened => exact absurd ⟨mark, service⟩ unmarked
    obtain ⟨settles, -, tables, calm⟩ := scanned_scan (freed.2 asked) tables calm
    exact ⟨settles, tables, calm⟩

theorem noOneServed_freed (none : NoOneServed s p) (evt : Nat) : s.entryFreed (some p) evt = s := by
  rcases none with closed | ⟨empty, unmarked⟩
  · exact entryFreed_closed closed ..
  · exact entryFreed_quiet unmarked empty evt

theorem noOneServed_scan (none : NoOneServed s p) (evt : Nat) : s.scan p evt = s := by
  rcases none with closed | ⟨empty, -⟩
  · exact scan_closed closed ..
  · exact scan_empty empty evt

end Sys2Proof.Machine
end

section
/-! SUPPORT. What becomes of a deadline that an advance reached: the proofs of O8, O9 and of the parts of O10 that
reached deadlines bring about. -/

namespace Sys2Proof.Machine

open Sys2Proof.Claims

variable {s t : State} {i sec evt : Nat}

/-! ### The deadline that is taken (R133) -/

/-- The deadline that is taken is one of those that its record's change withdraws. -/
theorem filter_erase_named {named : Deadline → Bool} {d : Deadline} (own : named d = true) (l : List Deadline) :
    (l.erase d).filter (fun e => !named e) = l.filter (fun e => !named e) := by
  induction l with
  | nil => rfl
  | cons e l ih =>
    rw [List.erase_cons]
    split
    · rename_i same
      rw [List.filter_cons_of_neg]
      simpa [(beq_iff_eq.mp same)] using own
    · rw [List.filter_cons, List.filter_cons, ih]

theorem uncount_taken {d : Deadline} (own : d.ofHolding i = true) (x : Holding) (evt : Nat) :
    (s.taken d).uncount i x evt = s.uncount i x evt := by
  have placed : (s.taken d).placeHolding i x = s.placeHolding i x := by
    rw [placeHolding_eq, placeHolding_eq]
    simp only [State.taken, filter_erase_named own]
  rw [State.uncount, State.uncount, placed]
  rfl

/-- The refund of a holding leaves the queue of its pool and the entry-starved mark as they are. -/
theorem leftCounted_queue (i evt p : Nat) (x : Holding) :
    ((leftCounted s i evt x).pool p).queue = (s.pool p).queue := by
  have figures : (leftCounted s i evt x).pool p = if p = (s.holding i).pool then _ else s.pool p := tableGet_put ..
  rw [figures]
  split
  · rename_i same
    rw [same]
    rfl
  · rfl

theorem noOneServed_leftCounted {p : Nat} (none : NoOneServed s p) (i evt : Nat) (x : Holding) :
    NoOneServed (leftCounted s i evt x) p :=
  none.imp_right fun idle => ⟨(leftCounted_queue i evt p x).trans idle.1, idle.2⟩

/-! ### The three endings that a deadline brings a holding (R86, R87, R100) -/

theorem exec_leaseExpiry (live : (s.holding i).state = .live)
    (reached : s.reachedOf .leaseExpiry i = some ⟨sec, .leaseExpiry, i⟩) :
    exec (.leaseExpiry i) s =
      .next ((s.uncount i
        ((s.holding i).lapsedAs
          (if (s.feature (s.holding i).feature).bind Feature.endInstant = some sec then .featureEnd else .lease) sec)
        sec).scan (s.holding i).pool sec).settle := by
  have own : Deadline.ofHolding i ⟨sec, .leaseExpiry, i⟩ = true := by simp [Deadline.ofHolding]
  have handled : (s.taken ⟨sec, .leaseExpiry, i⟩).handle ⟨sec, .leaseExpiry, i⟩ = _ :=
    handleLeaseExpiry_lapses (s := s.taken ⟨sec, .leaseExpiry, i⟩) live sec
  rw [uncount_taken own] at handled
  have taken : exec (.leaseExpiry i) s = .next (s.takeReached .leaseExpiry i) := rfl
  rw [taken, takeReached_some reached, handled]
  rfl

theorem exec_borrowEnd (borrowed : (s.holding i).state = .borrowed)
    (reached : s.reachedOf .borrowEnd i = some ⟨sec, .borrowEnd, i⟩) :
    exec (.borrowEnd i) s =
      .next ((s.uncount i ((s.holding i).lapsedAs .borrowEnd sec) sec).scan (s.holding i).pool sec).settle := by
  have own : Deadline.ofHolding i ⟨sec, .borrowEnd, i⟩ = true := by simp [Deadline.ofHolding]
  have handled : (s.taken ⟨sec, .borrowEnd, i⟩).handle ⟨sec, .borrowEnd, i⟩ = _ :=
    handleBorrowEnd_lapses (s := s.taken ⟨sec, .borrowEnd, i⟩) borrowed sec
  rw [uncount_taken own] at handled
  have taken : exec (.borrowEnd i) s = .next (s.takeReached .borrowEnd i) := rfl
  rw [taken, takeReached_some reached, handled]
  rfl

theorem exec_lingerEnd (lingering : (s.holding i).state = .lingering)
    (reached : s.reachedOf .lingerEnd i = some ⟨sec, .lingerEnd, i⟩) :
    exec (.lingerEnd i) s =
      .next ((s.uncount i (Holding.freeEntry (nextGen (s.holding i).gen)) sec).entryFreed (some (s.holding i).pool)
        sec).settle := by
  have own : Deadline.ofHolding i ⟨sec, .lingerEnd, i⟩ = true := by simp [Deadline.ofHolding]
  have handled : (s.taken ⟨sec, .lingerEnd, i⟩).handle ⟨sec, .lingerEnd, i⟩ = _ :=
    handleLingerEnd_frees (s := s.taken ⟨sec, .lingerEnd, i⟩) lingering sec
  rw [uncount_taken own] at handled
  have taken : exec (.lingerEnd i) s = .next (s.takeReached .lingerEnd i) := rfl
  rw [taken, takeReached_some reached, handled]
  rfl

/-! ### What follows a lapse and a freeing (R113, R119) -/

variable {p : Nat} {x : Holding}

theorem lapsed_unserved (calm : s.atOnce = []) (none : NoOneServed s p) (i evt : Nat) (x : Holding) :
    ((leftCounted s i evt x).scan p evt).settle = leftCounted s i evt x := by
  rw [noOneServed_scan (noOneServed_leftCounted none i evt x)]
  exact settle_none calm

theorem freed_unserved (calm : s.atOnce = []) (none : NoOneServed s p) (i evt : Nat) (x : Holding) :
    ((leftCounted s i evt x).entryFreed (some p) evt).settle = leftCounted s i evt x := by
  rw [noOneServed_freed (noOneServed_leftCounted none i evt x)]
  exact settle_none calm

/-- A drain follows the last holding, and no one is served. -/
theorem drained_unserved (tables : TablesOk s) (calm : s.atOnce = []) (none : NoOneServed s p) (i evt code : Nat)
    (x : Holding) :
    (((leftCounted s i evt x).drain code evt).scan p evt).settle = (leftCounted s i evt x).drain code evt
      ∧ (((leftCounted s i evt x).drain code evt).entryFreed (some p) evt).settle = (leftCounted s i evt x).drain code evt
      ∧ Drains (leftCounted s i evt x) ((leftCounted s i evt x).drain code evt) code evt := by
  have still : NoOneServed ((leftCounted s i evt x).drain code evt) p := noOneServed_leftCounted none i evt x
  have quiet : ((leftCounted s i evt x).drain code evt).atOnce = [] :=
    withdraw_atOnce_nil (s := leftCounted s i evt x) calm _
  rw [noOneServed_scan still, noOneServed_freed still]
  exact ⟨settle_none quiet, settle_none quiet, drain_drains (leftCounted_tables tables i evt) calm code evt⟩

/-! ### Release and Return that end a holding (R85, R99) -/

theorem releaseHolding_ends {h : Holding} {now : Bool} (live : h.state = .live) (last : h.refs = 1)
    (ends : now = true ∨ (s.featureOf h.feature).linger = 0) :
    s.releaseHolding i h now =
      ((s.endHolding i s.siteTime).settle, { code := .ok, detail := 2, body := 0#16 :: words32 0 }) := by
  rw [State.releaseHolding, live]
  refine (if_neg (by omega)).trans (if_neg ?_)
  rintro ⟨lingers, clear⟩
  rcases ends with rfl | none
  · cases clear
  · omega

theorem returnHolding_ends {h : Holding} (borrowed : h.state = .borrowed) :
    s.returnHolding i h =
      ((s.endHolding i s.siteTime).settle, { code := .ok, detail := 0, body := [wordOf h.tokens] }) := by
  rw [State.returnHolding, borrowed]

theorem leaving_tables (tables : TablesOk s) (rest : List Frame) : TablesOk (s.leaving rest) := tables.of_ledger rfl

end Sys2Proof.Machine

namespace Sys2Proof.Claims

open Sys2Proof.Machine

/-- Settles O8: the lapse of the holding, and then the scan as the statements describe it. -/
theorem leaseExpiryAndBorrowEndLapseTheHolding : Obligations.LeaseExpiryAndBorrowEndLapseTheHolding := by
  intro s i sec tables calm h reason lapsed stays
  have kept (x : Holding) (gone : x.state.counted = false) := uncount_kept tables calm gone stays sec
  refine ⟨fun live reached => ?_, fun borrowed reached => ?_⟩
  · have written : lapsed .live reason = leftCounted s i sec (h.lapsedAs reason sec) := by
      rw [leftCounted, live]
      rfl
    rw [written, exec_leaseExpiry live reached, kept _ rfl]
    exact ⟨fun none => congrArg _ (lapsed_unserved calm none ..),
      fun t scanned => congrArg _ (scanned_scan scanned (leftCounted_tables tables i sec) calm).1⟩
  · have written : lapsed .borrowed .borrowEnd = leftCounted s i sec (h.lapsedAs .borrowEnd sec) := by
      rw [leftCounted, borrowed]
      rfl
    rw [written, exec_borrowEnd borrowed reached, kept _ rfl]
    exact ⟨fun none => congrArg _ (lapsed_unserved calm none ..),
      fun t scanned => congrArg _ (scanned_scan scanned (leftCounted_tables tables i sec) calm).1⟩

/-- Settles O9: the freeing of the entry, and then what follows it as the statements describe it. -/
theorem lingerEndFreesTheEntry : Obligations.LingerEndFreesTheEntry := by
  intro s i sec tables calm h freed stays lingering reached
  have written : freed = leftCounted s i sec (Holding.freeEntry (nextGen h.gen)) := by
    rw [leftCounted, lingering]
  rw [written, exec_lingerEnd lingering reached, uncount_kept tables calm rfl stays]
  exact ⟨fun none => congrArg _ (freed_unserved calm none ..),
    fun t scanned => congrArg _ (freedScanned_freed scanned (leftCounted_tables tables i sec) calm).1⟩

/-- Settles O10: each of the five ends, and the drain that follows it. -/
theorem lastHoldingDrainsTheRetiringFeature : Obligations.LastHoldingDrainsTheRetiringFeature := by
  intro s i tables calm last h lapsed freed drains none
  have unserved (evt : Nat) (x : Holding) := drained_unserved tables calm none i evt h.feature x
  have uncounts (x : Holding) (gone : x.state.counted = false) := uncount_drains tables calm gone last
  refine ⟨fun sec => ⟨fun live reached => ?_, fun borrowed reached => ?_, fun lingering reached => ?_⟩,
    fun rest tag index gen named inside current => ?_⟩
  · obtain ⟨settles, -, drained⟩ := unserved sec (lapsed _ sec)
    refine ⟨_, ?_, drained⟩
    rw [exec_leaseExpiry live reached, uncounts _ rfl]
    exact congrArg _ settles
  · obtain ⟨settles, -, drained⟩ := unserved sec (lapsed .borrowEnd sec)
    refine ⟨_, ?_, drained⟩
    rw [exec_borrowEnd borrowed reached, uncounts _ rfl]
    exact congrArg _ settles
  · obtain ⟨-, settles, drained⟩ := unserved sec freed
    refine ⟨_, ?_, drained⟩
    rw [exec_lingerEnd lingering reached, uncounts _ rfl]
    exact congrArg _ settles
  · subst named
    have handle {st : HoldingState} (state : h.state = st) (used : st ≠ .free) :
        (s.leaving rest).handleNames index.toNat gen.toNat = some h :=
      handleNames_state (s := s.leaving rest) current state used
    have ends : ((s.leaving rest).endHolding index.toNat s.siteTime).settle =
        (leftCounted (s.leaving rest) index.toNat s.siteTime freed).drain h.feature s.siteTime := by
      have uncounted : (s.leaving rest).uncount index.toNat freed s.siteTime = _ :=
        uncount_drains (leaving_tables tables rest) calm rfl last s.siteTime
      rw [endHolding_eq]
      exact (congrArg (fun u : State => (u.entryFreed (some h.pool) s.siteTime).settle) uncounted).trans
        (drained_unserved (leaving_tables tables rest) calm none ..).2.1
    have drained (r : Frame) := (drained_unserved (s := answered s rest r) (tables.of_ledger rfl) calm none index.toNat
      s.siteTime h.feature freed).2.2
    refine ⟨fun flag taking live refs now => ?_, fun taking borrowed => ?_⟩
    · refine ⟨_, ?_, drained _⟩
      obtain ⟨⟨f, known, -⟩, -⟩ := last
      have record : s.featureOf h.feature = f := by rw [State.featureOf, known, Option.getD_some]
      have least : flag.toNat ≤ 1 ∧ ((flag.toNat == 1) = true ∨ f.linger = 0) := by
        rcases now with rfl | ⟨rfl, lingers⟩
        · exact ⟨by decide, .inl rfl⟩
        · exact ⟨by decide, .inr (lingers f known)⟩
      have served := (serveRelease_named (f := [0x0305#16, tag, index, gen, flag]) inside least.1 (handle live nofun)).trans
        (releaseHolding_ends live refs (least.2.imp_right fun none => record ▸ none))
      exact serveKind_reply taking (kind := 0x03#8) (by decide) rfl (.inl rfl)
        (served.trans (Prod.ext ends rfl))
    · refine ⟨_, ?_, drained _⟩
      have served := (serveReturn_named (f := [0x0504#16, tag, index, gen]) inside (handle borrowed nofun)).trans
        (returnHolding_ends borrowed)
      exact serveKind_reply taking (kind := 0x05#8) (by decide) rfl (.inl rfl)
        (served.trans (Prod.ext ends rfl))

end Sys2Proof.Claims
end

section
/-! SUPPORT. Waiters that end, one or all those of a feature, written out: the proofs of O11, O12 and O45. -/

namespace Sys2Proof.Machine

open Sys2Proof.Claims

variable {s t : State} {j evt code : Nat} {reason : WaiterEnd}

/-! ### One waiter (R120) -/

theorem endWaiter_written (s : State) (j : Nat) (reason : WaiterEnd) (evt : Nat) :
    s.endWaiter j reason evt =
      { s with
        reached := s.reached.filter (fun d => !d.ofWaiter j)
        atOnce := s.atOnce.filter (fun d => !d.ofWaiter j)
        waiters := tablePut Waiter.initial s.waiters j ((s.waiter j).endedAs reason evt)
        pools := tablePut Pool.initial s.pools (s.featureOf (s.waiter j).feature).pool
          { s.pool (s.featureOf (s.waiter j).feature).pool with
            queue := (s.pool (s.featureOf (s.waiter j).feature).pool).queue.filter (fun m => m != j) } } :=
  dequeue_written (w := (s.waiter j).endedAs reason evt) nofun s (s.featureOf (s.waiter j).feature).pool j

theorem featureOf_known {f : Feature} (known : s.feature code = some f) : s.featureOf code = f := by
  rw [State.featureOf, known, Option.getD_some]

/-! ### The waiters of a feature (R121) -/

/-- The waiter is one that the end of its feature's waiters ends. -/
def Waiter.waitsFor (code : Nat) (w : Waiter) : Bool := decide (w.state = .waiting ∧ w.feature = code)

/-- The waiters of a list that wait for a feature, ended one after another. -/
def State.endListed (s : State) (l : Table Waiter) (code : Nat) (reason : WaiterEnd) (evt : Nat) : State :=
  l.foldl (fun acc e => if e.2.state = .waiting ∧ e.2.feature = code then acc.endWaiter e.1 reason evt else acc) s

/-- An entry is listed with a waiter that waits for a feature. -/
def listsWaiting (l : Table Waiter) (code j : Nat) : Bool := l.any (fun e => e.1 == j && e.2.waitsFor code)

theorem endListed_cons (s : State) (e : Nat × Waiter) (l : Table Waiter) (code : Nat) (reason : WaiterEnd) (evt : Nat) :
    s.endListed (e :: l) code reason evt =
      (if e.2.waitsFor code then s.endWaiter e.1 reason evt else s).endListed l code reason evt := by
  rw [State.endListed, List.foldl_cons, Waiter.waitsFor]
  simp only [decide_eq_true_eq]
  rfl

theorem endListed_rest (l : Table Waiter) (s : State) (code : Nat) (reason : WaiterEnd) (evt : Nat) :
    s.endListed l code reason evt =
      { s with
        waiters := (s.endListed l code reason evt).waiters
        pools := (s.endListed l code reason evt).pools
        reached := s.reached.filter (fun d => !(d.ofWaiter d.record && listsWaiting l code d.record))
        atOnce := s.atOnce.filter (fun d => !(d.ofWaiter d.record && listsWaiting l code d.record)) } := by
  induction l generalizing s with
  | nil => simp [State.endListed, listsWaiting]
  | cons e l ih =>
    have own (d : Deadline) : d.ofWaiter e.1 = (d.ofWaiter d.record && (e.1 == d.record)) := by
      simp only [Deadline.ofWaiter]
      cases d.kind == .waitDeadline <;> simp [Bool.beq_comm]
    rw [endListed_cons, ih]
    by_cases waits : e.2.waitsFor code = true
    · have gone (l' : List Deadline) : (l'.filter (fun d => !d.ofWaiter e.1)).filter
            (fun d => !(d.ofWaiter d.record && listsWaiting l code d.record)) =
          l'.filter (fun d => !(d.ofWaiter d.record && listsWaiting (e :: l) code d.record)) := by
        rw [filter_both]
        refine List.filter_congr fun d _ => ?_
        rw [own, listsWaiting, listsWaiting, List.any_cons, waits]
        cases d.ofWaiter d.record <;> cases e.1 == d.record <;> simp
      rw [if_pos waits, ← gone, ← gone, endWaiter_written]
    · have kept (l' : List Deadline) : l'.filter
            (fun d => !(d.ofWaiter d.record && listsWaiting l code d.record)) =
          l'.filter (fun d => !(d.ofWaiter d.record && listsWaiting (e :: l) code d.record)) := by
        refine List.filter_congr fun d _ => ?_
        rw [listsWaiting, listsWaiting, List.any_cons, Bool.eq_false_iff.mpr waits]
        simp
      rw [if_neg waits, kept, kept]

theorem endWaiter_feature (s : State) (j k : Nat) (reason : WaiterEnd) (evt : Nat) :
    ((s.endWaiter j reason evt).waiter k).feature = (s.waiter k).feature := by
  rw [endWaiter_eq, waiter_dequeue]
  split
  · rename_i same
    rw [same]
    rfl
  · rfl

theorem endListed_pool (l : Table Waiter) {s : State} {code : Nat}
    (named : ∀ e ∈ l, e.2.waitsFor code = true → (s.waiter e.1).feature = code) (reason : WaiterEnd) (evt p : Nat) :
    (s.endListed l code reason evt).pool p =
      { s.pool p with
        queue := if p = (s.featureOf code).pool then (s.pool p).queue.filter (fun k => !listsWaiting l code k)
          else (s.pool p).queue } := by
  induction l generalizing s with
  | nil => simp [State.endListed, listsWaiting]
  | cons e l ih =>
    have others := fun x listed => named x (List.mem_cons_of_mem e listed)
    rw [endListed_cons]
    by_cases waits : e.2.waitsFor code = true
    · have home : (s.endWaiter e.1 reason evt).featureOf code = s.featureOf code := by
        rw [endWaiter_eq, featureOf_dequeue]
      have gone (queue : List Nat) : (queue.filter (fun m => m != e.1)).filter (fun k => !listsWaiting l code k) =
          queue.filter (fun k => !listsWaiting (e :: l) code k) := by
        rw [List.filter_filter]
        refine List.filter_congr fun k _ => ?_
        rw [listsWaiting, listsWaiting, List.any_cons, waits, bne, Bool.beq_comm]
        cases e.1 == k <;> simp
      rw [if_pos waits, ih fun x listed waiting => by rw [endWaiter_feature]; exact others x listed waiting, home,
        endWaiter_eq, named e List.mem_cons_self waits, pool_dequeue]
      by_cases here : p = (s.featureOf code).pool
      · subst here
        simp only [if_true, gone]
      · simp only [if_neg here]
    · have kept (queue : List Nat) : queue.filter (fun k => !listsWaiting l code k) =
          queue.filter (fun k => !listsWaiting (e :: l) code k) := by
        refine List.filter_congr fun k _ => ?_
        rw [listsWaiting, listsWaiting, List.any_cons, Bool.eq_false_iff.mpr waits]
        simp
      rw [if_neg waits, ih others, kept]

theorem listsWaiting_table (rising : TableRising s.waiters) (code j : Nat) :
    listsWaiting s.waiters code j = (s.waiter j).waitsFor code := by
  rw [Bool.eq_iff_iff, listsWaiting, List.any_eq_true]
  constructor
  · rintro ⟨e, listed, found⟩
    obtain ⟨rfl, waits⟩ : e.1 = j ∧ e.2.waitsFor code = true := by simpa using found
    rwa [State.waiter, tableGet_of_mem rising listed]
  · intro waits
    cases found : tableFind s.waiters j with
    | none =>
      rw [State.waiter, tableGet, found] at waits
      simp [Waiter.waitsFor, Waiter.initial, Waiter.freeEntry] at waits
    | some w =>
      rw [State.waiter, tableGet, found] at waits
      exact ⟨(j, w), mem_of_tableFind found, by simpa using waits⟩

/-- The deadlines of the feature's WAITING waiters. -/
def State.waitsOf (s : State) (code : Nat) (d : Deadline) : Bool :=
  d.ofWaiter d.record && (s.waiter d.record).waitsFor code

theorem endFeatureWaiters_rest (rising : TableRising s.waiters) (code : Nat) (reason : WaiterEnd) (evt : Nat) :
    s.endFeatureWaiters code reason evt =
      { s with
        waiters := (s.endFeatureWaiters code reason evt).waiters
        pools := (s.endFeatureWaiters code reason evt).pools
        reached := s.reached.filter (fun d => !s.waitsOf code d)
        atOnce := s.atOnce.filter (fun d => !s.waitsOf code d) } := by
  have rest := endListed_rest s.waiters s code reason evt
  simp only [listsWaiting_table rising] at rest
  exact rest

theorem endFeatureWaiters_pool (rising : TableRising s.waiters) (code : Nat) (reason : WaiterEnd) (evt p : Nat) :
    (s.endFeatureWaiters code reason evt).pool p =
      { s.pool p with
        queue := if p = (s.featureOf code).pool then
          (s.pool p).queue.filter (fun k => !(s.waiter k).waitsFor code) else (s.pool p).queue } := by
  have named (e : Nat × Waiter) (listed : e ∈ s.waiters) (waits : e.2.waitsFor code = true) :
      (s.waiter e.1).feature = code := by
    rw [State.waiter, tableGet_of_mem rising listed]
    exact (of_decide_eq_true waits).2
  have pool := endListed_pool s.waiters named reason evt p
  simp only [listsWaiting_table rising] at pool
  exact pool

/-! ### Retire Feature (R18) -/

theorem serveRetireFeature_zero {x : Frame} (zero : field x 2 = 0) : serveRetireFeature x s = (s, badField 2) :=
  if_pos zero

theorem serveRetireFeature_unknown {x : Frame} (named : field x 2 ≠ 0) (unknown : s.feature (field x 2) = none) :
    serveRetireFeature x s = (s, plain .unknownFeature 0) := by
  rw [serveRetireFeature, if_neg named, unknown]

theorem serveRetireFeature_retiring {x : Frame} {f : Feature} (named : field x 2 ≠ 0)
    (known : s.feature (field x 2) = some f) (retiring : f.state = .retiring) :
    serveRetireFeature x s = (s, plain .retired 0) := by
  rw [serveRetireFeature, if_neg named, known]
  exact if_pos retiring

theorem serveRetireFeature_active {x : Frame} {f : Feature} (named : field x 2 ≠ 0)
    (known : s.feature (field x 2) = some f) (active : f.state = .active) :
    serveRetireFeature x s = (s.retire (field x 2) f, okay (if s.featureHeld (field x 2) then 0 else 1)) := by
  rw [serveRetireFeature, if_neg named, known]
  exact if_neg (by rw [active]; nofun)

/-- The feature RETIRING and its waiters ended, before the drain report. -/
def State.retired (s : State) (code : Nat) (f : Feature) : State :=
  (s.setFeature code { f with state := .retiring }).endFeatureWaiters code .retired s.siteTime

theorem retired_rest (rising : TableRising s.waiters) (code : Nat) (f : Feature) :
    s.retired code f =
      { s with
        features := tableInsert s.features code { f with state := .retiring }
        waiters := (s.retired code f).waiters
        pools := (s.retired code f).pools
        reached := s.reached.filter (fun d => !s.waitsOf code d)
        atOnce := s.atOnce.filter (fun d => !s.waitsOf code d) } :=
  endFeatureWaiters_rest (s := s.setFeature code { f with state := .retiring }) rising code .retired s.siteTime

theorem retired_feature (rising : TableRising s.waiters) (code : Nat) (f : Feature) (k : Nat) :
    (s.retired code f).feature k = if k = code then some { f with state := .retiring } else s.feature k := by
  rw [retired_rest rising]
  exact tableFind_insert ..

theorem retired_pool (rising : TableRising s.waiters) (code : Nat) (f : Feature) (p : Nat) :
    (s.retired code f).pool p =
      { s.pool p with
        queue := if p = f.pool then (s.pool p).queue.filter (fun k => !(s.waiter k).waitsFor code)
          else (s.pool p).queue } := by
  have home : ((s.setFeature code { f with state := .retiring }).featureOf code).pool = f.pool := by
    rw [featureOf_known ((feature_setFeature ..).trans (if_pos rfl))]
  have pools := endFeatureWaiters_pool (s := s.setFeature code { f with state := .retiring }) rising code .retired
    s.siteTime p
  rw [home] at pools
  exact pools

/-- The drain report of a feature that has retired. -/
theorem retire_cases (tables : TablesOk s) (code : Nat) (f : Feature) :
    (Held s code → s.retire code f = s.retired code f)
      ∧ (¬Held s code → s.retire code f = (s.retired code f).drain code s.siteTime) := by
  have rising := tables.waiters_canonical.1
  have holdings : (s.retired code f).holdings = s.holdings := by rw [retired_rest rising]
  have look (i : Nat) : (s.retired code f).holding i = s.holding i := by
    rw [State.holding, holdings]
    rfl
  have held : Held (s.retired code f) code ↔ Held s code := by simp only [Held, look]
  have known : (s.retired code f).feature code = some { f with state := .retiring } := by
    rw [retired_feature rising, if_pos rfl]
  exact ⟨fun some => drainReport_stays (holdings ▸ tables.holdings_canonical.1) (fun _ _ _ => held.mpr some) _,
    fun none => drainReport_drains (holdings ▸ tables.holdings_canonical.1) known rfl (fun some => none (held.mp some)) _⟩

end Sys2Proof.Machine

namespace Sys2Proof.Claims

open Sys2Proof.Machine

/-- Settles O11: the deadline's waiter leaves its queue, and no deadline is left to handle at once. -/
theorem waitDeadlineEndsTheWaiter : Obligations.WaitDeadlineEndsTheWaiter := by
  intro s j sec f calm w known waits reached
  have own : Deadline.ofWaiter j ⟨sec, .waitDeadline, j⟩ = true := by simp [Deadline.ofWaiter]
  have taken : exec (.waitDeadline j) s = .next (s.takeReached .waitDeadline j) := rfl
  have handled : (s.taken ⟨sec, .waitDeadline, j⟩).handle ⟨sec, .waitDeadline, j⟩ =
      (s.taken ⟨sec, .waitDeadline, j⟩).endWaiter j ((s.featureOf w.feature).waitReason sec) sec := if_pos waits
  rw [endWaiter_written, featureOf_known known] at handled
  have home : (s.taken ⟨sec, .waitDeadline, j⟩).featureOf ((s.taken ⟨sec, .waitDeadline, j⟩).waiter j).feature = f :=
    featureOf_known known
  rw [taken, takeReached_some reached, handled, home]
  simp only [State.taken, calm, filter_erase_named own, List.filter_nil]
  rw [settle_none rfl]
  rfl

/-- Settles O12: the feature keeps its record but for the end instant, and its waiters end one after another. -/
theorem featureEndInstantEndsTheWaiters : Obligations.FeatureEndInstantEndsTheWaiters := by
  intro s code sec f tables calm known reached
  obtain ⟨u, written⟩ : ∃ u, u = (s.taken ⟨sec, .featureEnd, code⟩).setFeature code { f with endLodged := false } :=
    ⟨_, rfl⟩
  have rising : TableRising u.waiters := written ▸ tables.waiters_canonical.1
  have handled : (s.taken ⟨sec, .featureEnd, code⟩).handle ⟨sec, .featureEnd, code⟩ =
      u.endFeatureWaiters code .expired sec := by
    have found : (s.taken ⟨sec, .featureEnd, code⟩).feature code = some f := known
    rw [State.handle]
    simp only [State.handleFeatureEnd, found, written]
  have features (k : Nat) : u.feature k = if k = code then some { f with endLodged := false } else s.feature k := by
    rw [written, feature_setFeature]
    rfl
  have home : (u.featureOf code).pool = f.pool := by
    rw [featureOf_known ((features code).trans (if_pos rfl))]
  have rest := endFeatureWaiters_rest rising code .expired sec
  have pools (p : Nat) := endFeatureWaiters_pool rising code .expired sec p
  have waiters (k : Nat) := waiter_endFeatureWaiters rising code .expired sec k
  have idle : (u.endFeatureWaiters code .expired sec).atOnce = [] := by
    rw [rest, written]
    exact (congrArg _ calm).trans List.filter_nil
  have waitsFor (k : Nat) : (s.waiter k).waitsFor code =
      decide ((s.waiter k).state = .waiting ∧ (s.waiter k).feature = code) := rfl
  refine ⟨u.endFeatureWaiters code .expired sec, ?_, ?_, ?_, ?_, ?_, ?_, ?_, ?_⟩
  · have taken : exec (.featureEndInstant code) s = .next (s.takeReached .featureEnd code) := rfl
    rw [taken, takeReached_some reached, handled, settle_none idle]
  · intro j
    rw [waiters, written]
    rfl
  · rw [pools, home, if_pos rfl, written]
    exact List.filter_congr fun k _ => (decide_not ..).symm
  · intro p
    rw [pools, written]
    rfl
  · intro p other
    rw [pools, home, if_neg other, written]
    rfl
  · intro k
    rw [rest]
    exact features k
  · rw [rest, written]
    rfl
  · rw [rest, written]
    simp only [State.setFeature, State.taken, calm, List.filter_nil, eq_of_calm calm]

/-- Settles O45: the waiters end one after another, and the drain report follows. -/
theorem retireFeatureEndsItsWaiters : Obligations.RetireFeatureEndsItsWaiters := by
  intro s rest tag code taking admin calm tables c waits
  have refused (answer : ReplyCode) (detail : Nat) :=
    serveKind_refused taking (kind := 0x29#8) (by decide) rfl (.inr ⟨rfl, admin⟩) (owner := serveRetireFeature)
      (code := answer) (detail := detail)
  refine ⟨fun zero => refused .badField 2 (serveRetireFeature_zero zero),
    fun named unknown => refused .unknownFeature 0 (serveRetireFeature_unknown named unknown),
    fun f named known => ⟨fun retiring => refused .retired 0 (serveRetireFeature_retiring named known retiring),
      fun active => ?_⟩⟩
  obtain ⟨u, start⟩ : ∃ u, u = s.leaving rest := ⟨_, rfl⟩
  have uTables : TablesOk u := start ▸ leaving_tables tables rest
  have rising := uTables.waiters_canonical.1
  have served := serveRetireFeature_active (s := u) (x := [0x2903#16, tag, code]) named (start ▸ known) active
  have answers : exec .retireFeature s = .next ((u.retire c f).placeReply
      (reply 0x29#8 tag 0x00#8 (if u.featureHeld c then 0 else 1) [])) := by
    rw [start] at served ⊢
    exact serveKind_reply taking (kind := 0x29#8) (by decide) rfl (.inr ⟨rfl, admin⟩) served
  obtain ⟨stays, drains⟩ := retire_cases uTables c f
  have heldAlike : u.featureHeld c = true ↔ Held s c := by
    rw [featureHeld_iff uTables.holdings_canonical.1, start]
    rfl
  have feature := retired_feature rising c f
  have pool := retired_pool rising c f
  have waiter (k : Nat) : (u.retired c f).waiter k = (u.waiter k).endedWith c .retired u.siteTime :=
    waiter_endFeatureWaiters (s := u.setFeature c { f with state := .retiring }) rising c .retired u.siteTime k
  have written := retired_rest rising c f
  have drained : (u.retired c f).drained = s.drained := by
    rw [written, start]
    rfl
  have vTables : TablesOk (u.retired c f) := (uTables.setFeature ..).endFeatureWaiters ..
  have vCalm : (u.retired c f).atOnce = [] := by
    rw [written, start]
    exact (congrArg _ calm).trans List.filter_nil
  have frame : { u.retired c f with
        waiters := s.waiters, pools := s.pools, features := s.features, reached := s.reached } = s.leaving rest := by
    rw [written, start]
    simp only [State.leaving, calm, List.filter_nil]
  have now : u.siteTime = s.siteTime := by
    rw [start]
    rfl
  have leaves : Drains (u.retired c f) ((u.retired c f).drain c s.siteTime) c s.siteTime :=
    drain_drains vTables vCalm c s.siteTime
  rw [now] at drains
  have alike : (u.retire c f).waiters = (u.retired c f).waiters ∧ (u.retire c f).pools = (u.retired c f).pools := by
    by_cases held : Held u c
    · rw [stays held]
      exact ⟨rfl, rfl⟩
    · rw [drains held]
      exact ⟨rfl, rfl⟩
  have waiters (k : Nat) : (u.retire c f).waiter k = (u.waiter k).endedWith c .retired u.siteTime := by
    rw [State.waiter, alike.1]
    exact waiter k
  have pools (p : Nat) : (u.retire c f).pool p = (u.retired c f).pool p := by rw [State.pool, alike.2, State.pool]
  obtain ⟨r, replied⟩ : ∃ r, r = reply 0x29#8 tag 0x00#8 (if u.featureHeld c then 0 else 1) [] := ⟨_, rfl⟩
  rw [← replied] at answers
  refine ⟨_, r, answers, fun j => ?_, ?_, fun p => ?_, fun p other => ?_, fun k other => ?_, fun held => ?_, fun unheld => ?_,
    fun d listed => ?_, ?_⟩
  · refine (waiters j).trans ?_
    rw [start]
    rfl
  · refine (congrArg Pool.queue ((pools f.pool).trans (pool f.pool))).trans ?_
    rw [if_pos rfl, start]
    exact List.filter_congr fun k _ => (decide_not ..).symm
  · refine (congrArg (fun q : Pool => { q with queue := [] }) ((pools p).trans (pool p))).trans ?_
    rw [start]
    rfl
  · refine ((pools p).trans (pool p)).trans ?_
    rw [if_neg other, start]
    rfl
  · have apart : (u.retire c f).feature k = (u.retired c f).feature k := by
      by_cases held : Held u c
      · rw [stays held]
      · rw [drains held, feature_drain, if_neg other]
    refine apart.trans ((feature k).trans ?_)
    rw [if_neg other, start]
    rfl
  · have same : u.retire c f = u.retired c f := stays (by rwa [start])
    refine ⟨?_, ?_, ?_, ?_⟩
    · refine (congrArg (State.feature · c) same).trans ((feature c).trans (if_pos rfl))
    · exact (congrArg State.drained same).trans drained
    · refine (congrArg State.reached same).trans ?_
      rw [written, start]
      rfl
    · rw [replied, if_pos (heldAlike.mpr held)]
  · have same : u.retire c f = (u.retired c f).drain c s.siteTime := drains (by rwa [start])
    have idle : u.featureHeld c = false := Bool.eq_false_iff.mpr fun held => unheld (heldAlike.mp held)
    obtain ⟨fields, gone, -, -, listed, -, -, ordered⟩ := leaves
    refine ⟨?_, ?_, fun inOrder => ?_, ?_, ?_⟩
    · exact (congrArg (State.feature · c) same).trans gone
    · exact (congrArg State.drained same) ▸ listed
    · refine (congrArg State.drained same).trans ((ordered ?_).trans (by rw [drained]))
      rw [DrainedOrdered, drained]
      exact inOrder
    · refine (congrArg State.reached same).trans ((congrArg State.reached fields).trans ?_)
      rw [written, start]
      refine (filter_both ..).trans (List.filter_congr fun d _ => ?_)
      rw [Bool.not_or, Bool.and_comm]
      rfl
    · rw [replied, idle]
      rfl
  · by_cases held : Held u c
    · have same : d ∈ (u.retire c f).drained := listed
      rw [stays held, drained] at same
      exact .inr same
    · have same : d ∈ (u.retire c f).drained := listed
      rw [drains held] at same
      exact drained ▸ leaves.2.2.2.2.2.1 d same
  · have others (v : State) (same : { v with
          waiters := s.waiters, pools := s.pools, features := s.features, drained := s.drained, reached := s.reached } =
        s.leaving rest) : { v.placeReply r with
          waiters := s.waiters, pools := s.pools, features := s.features, drained := s.drained, reached := s.reached } =
        answered s rest r := congrArg (State.placeReply · r) same
    have before : { u.retired c f with
        waiters := s.waiters, pools := s.pools, features := s.features, drained := s.drained, reached := s.reached } =
        s.leaving rest := congrArg (fun v : State => { v with drained := s.drained }) frame
    refine others _ ?_
    by_cases held : Held u c
    · rw [stays held]
      exact before
    · rw [drains held]
      exact (congrArg (fun v : State => { v with
        waiters := s.waiters, pools := s.pools, features := s.features, drained := s.drained, reached := s.reached })
        leaves.1).trans before

end Sys2Proof.Claims
end

section
/-! SUPPORT. Renew, Release, Borrow and Return of a holding that a handle names, with what is reached at once: the proofs
of O25 to O28. -/

namespace Sys2Proof.Machine

open Sys2Proof.Claims

variable {s t : State} {i evt : Nat}

/-! ### Requests about a holding, and the link (R166) -/

/-- What an owner makes of a frame, where the taking of the frame commutes with it. -/
theorem serveKind_answered {w tag : Word} {more : Frame} {rest : List Frame} (taking : Taking s (w :: tag :: more) rest)
    {kind : Byte} (hk : hiByte w = kind) (hl : lengthTaken kind.toNat (more.length + 2) = true)
    (hc : clientKind kind.toNat = true ∨ (adminKind kind.toNat = true ∧ s.admen = true))
    {owner : Frame → State → State × Answer} {a : Answer}
    (ho : owner (w :: tag :: more) (s.leaving rest) = (t.leaving rest, a)) :
    serveKind kind.toNat owner s = .next (answered t rest (reply kind tag a.code.byte a.detail a.body)) :=
  serveKind_reply taking hk hl hc ho

theorem next_answered {u v : State} (same : u = v) (rest : List Frame) (r : Frame) :
    (.next (answered u rest r) : Host.Outcome State Fault Refusal) = .next (answered v rest r) := by rw [same]

section Relinked

variable (s : State) (l : Relinking) (i : Nat) (h : Holding)

theorem relink_renewHolding :
    (s.relink l).renewHolding i h = ((s.renewHolding i h).1.relink l, (s.renewHolding i h).2) := by
  have barred : (s.relink l).isBarred h.user = s.isBarred h.user := rfl
  have lease : (s.relink l).leaseEnd ((s.relink l).featureOf h.feature) = s.leaseEnd (s.featureOf h.feature) := rfl
  unfold State.renewHolding
  simp only [barred, lease, relink_placeHolding, relink_settle]
  cases h.state with
  | live =>
    simp only []
    split_ifs <;> rfl
  | _ => rfl

theorem relink_releaseHolding (now : Bool) :
    (s.relink l).releaseHolding i h now = ((s.releaseHolding i h now).1.relink l, (s.releaseHolding i h now).2) := by
  have feature : (s.relink l).featureOf h.feature = s.featureOf h.feature := rfl
  have time : (s.relink l).siteTime = s.siteTime := rfl
  have pool : (s.relink l).pool h.pool = s.pool h.pool := rfl
  unfold State.releaseHolding State.releaseLast
  simp only [feature, time, pool, relink_placeHolding, relink_setPool, relink_endHolding, relink_settle]
  cases h.state with
  | live =>
    simp only []
    split_ifs <;> rfl
  | _ => rfl

theorem relink_borrowHolding (days : Nat) :
    (s.relink l).borrowHolding i h days = ((s.borrowHolding i h days).1.relink l, (s.borrowHolding i h days).2) := by
  have barred : (s.relink l).isBarred h.user = s.isBarred h.user := rfl
  have feature : (s.relink l).featureOf h.feature = s.featureOf h.feature := rfl
  have time : (s.relink l).siteTime = s.siteTime := rfl
  have pool : (s.relink l).pool h.pool = s.pool h.pool := rfl
  unfold State.borrowHolding State.convert
  simp only [barred, feature, time, pool, relink_placeHolding, relink_setPool, relink_settle]
  cases h.state with
  | live =>
    simp only []
    split_ifs <;> rfl
  | _ => rfl

theorem relink_returnHolding :
    (s.relink l).returnHolding i h = ((s.returnHolding i h).1.relink l, (s.returnHolding i h).2) := by
  have time : (s.relink l).siteTime = s.siteTime := rfl
  unfold State.returnHolding
  simp only [time, relink_endHolding, relink_settle]
  cases h.state <;> rfl

end Relinked

/-! ### A deadline that an entry is given (R65, R132) -/

/-- An entry with other contents, its old deadline withdrawn. -/
def State.entered (s : State) (i : Nat) (x : Holding) : State :=
  { s with
    reached := s.reached.filter (fun d => !d.ofHolding i)
    holdings := tablePut Holding.initial s.holdings i x }

theorem placeHolding_lodges (calm : s.atOnce = []) {x : Holding} {k : DeadlineKind}
    (kind : x.state.deadlineKind = some k) (i : Nat) :
    s.placeHolding i x = { s.entered i x with atOnce := dueNow s.siteTime (some ⟨x.deadline, k, i⟩) } := by
  have lodges : holdingDeadline (i, x) = some ⟨x.deadline, k, i⟩ := by
    rw [holdingDeadline, kind]
    rfl
  rw [placeHolding_eq, lodges, calm, List.filter_nil, List.nil_append]
  rfl

theorem placeHolding_lies_ahead (calm : s.atOnce = []) {x : Holding} {k : DeadlineKind}
    (kind : x.state.deadlineKind = some k) (ahead : s.siteTime < x.deadline) (i : Nat) :
    s.placeHolding i x = s.entered i x := by
  have quiet : (s.entered i x).atOnce = [] := calm
  rw [placeHolding_lodges calm kind, dueNow_ahead ahead]
  exact eq_of_calm quiet

theorem placeHolding_is_due (calm : s.atOnce = []) {x : Holding} {k : DeadlineKind}
    (kind : x.state.deadlineKind = some k) (due : x.deadline ≤ s.siteTime) (i : Nat) :
    s.placeHolding i x = { s.entered i x with atOnce := [⟨x.deadline, k, i⟩] } := by
  rw [placeHolding_lodges calm kind, dueNow_due due]

theorem settle_first (tables : TablesOk s) (calm : s.atOnce = []) (d : Deadline) :
    State.settle { s with atOnce := [d] } = (s.handle d).settle := by
  have took : State.takeDue { s with atOnce := [d] } = some (d, s) := by
    rw [State.takeDue, earliest_one, State.takeAmong]
    simp only [List.erase_cons_head, eq_of_calm calm]
  exact settle_take (tables.withDeadlines s.reached [d] s.choices) took

theorem entered_tables (tables : TablesOk s) (i : Nat) (x : Holding) : TablesOk (s.entered i x) :=
  ⟨tables.1, tables.2, tables.3, tables.4, tables.5, tables.6, tables.7, tablePut_canonical tables.8 i x, tables.9⟩

theorem holding_entered (i k : Nat) (x : Holding) : (s.entered i x).holding k = if k = i then x else s.holding k :=
  tableGet_put ..

/-! ### Holdings that end once their entry has changed -/

theorem filter_twice (l : List Deadline) (named : Deadline → Bool) :
    (l.filter (fun d => !named d)).filter (fun d => !named d) = l.filter (fun d => !named d) := by
  rw [filter_both]
  simp only [Bool.and_self]

theorem leftCounted_refiltered (evt : Nat) (y : Holding) :
    leftCounted { s with reached := s.reached.filter (fun d => !d.ofHolding i) } i evt y = leftCounted s i evt y := by
  unfold leftCounted
  simp only [filter_twice]
  rfl

/-- A change of the entry that touches neither its state nor its account leaves no trace once the holding has ended. -/
theorem leftCounted_entered (tables : TablesOk s) {x : Holding} (state : x.state = (s.holding i).state)
    (pool : x.pool = (s.holding i).pool) (project : x.project = (s.holding i).project)
    (tokens : x.tokens = (s.holding i).tokens) (evt : Nat) (y : Holding) :
    leftCounted (s.entered i x) i evt y = leftCounted s i evt y := by
  have own : (s.entered i x).holding i = x := (holding_entered i i x).trans (if_pos rfl)
  unfold leftCounted
  rw [own]
  simp only [state, pool, project, tokens, State.entered, filter_twice, tablePut_put tables.holdings_canonical]
  rfl

theorem noDrain_of_alike {u : State} (stays : NoDrain s i) (features : ∀ c, u.feature c = s.feature c)
    (own : (u.holding i).feature = (s.holding i).feature) (others : ∀ k, k ≠ i → u.holding k = s.holding k) :
    NoDrain u i := by
  intro f known retiring
  rw [own, features] at known
  obtain ⟨k, other, counted, feature⟩ := stays f known retiring
  refine ⟨k, other, ?_, ?_⟩
  · rwa [others k other]
  · rwa [others k other, own]

/-! ### Renew (R83, R89) -/

theorem renewHolding_barred {h : Holding} (live : h.state = .live) (barred : s.isBarred h.user = true) (i : Nat) :
    s.renewHolding i h = (s, plain .barred 0) := by
  rw [State.renewHolding, live]
  exact if_pos barred

theorem renewHolding_fresh {h : Holding} {f : Feature} (live : h.state = .live) (enabled : ¬s.isBarred h.user = true)
    (known : s.feature h.feature = some f) (i : Nat) :
    s.renewHolding i h =
      ((s.placeHolding i { h with deadline := s.leaseEnd f }).settle,
        { code := .ok, detail := 0, body := words32 (s.leaseEnd f) }) := by
  rw [State.renewHolding, live]
  refine (if_neg enabled).trans ?_
  rw [featureOf_known known, ← live]

/-- A fresh lease that is reached at once lapses the holding. -/
theorem renewed_lapses (tables : TablesOk s) (calm : s.atOnce = []) {h : Holding} (entry : s.holding i = h)
    (live : h.state = .live) {lease : Nat} (due : lease ≤ s.siteTime) (stays : NoDrain s i) :
    (s.placeHolding i { h with deadline := lease }).settle =
      ((leftCounted s i lease
        (h.lapsedAs
          (if (s.feature h.feature).bind Feature.endInstant = some lease then .featureEnd else .lease) lease)).scan
        h.pool lease).settle := by
  subst entry
  obtain ⟨x, made⟩ : ∃ x : Holding, x = { s.holding i with deadline := lease } := ⟨_, rfl⟩
  have own : (s.entered i x).holding i = x := (holding_entered i i x).trans (if_pos rfl)
  have kind : x.state.deadlineKind = some .leaseExpiry := by
    rw [made]
    exact congrArg _ live
  have still : NoDrain (s.entered i x) i := by
    refine noDrain_of_alike stays (fun _ => rfl) (by rw [own, made]) fun k other => ?_
    rw [holding_entered, if_neg other]
  have ends := handleLeaseExpiry_lapses (s := s.entered i x) (i := i) (by rw [own, made]; exact live) lease
  rw [uncount_kept (entered_tables tables i x) calm rfl still, own,
    leftCounted_entered tables (by rw [made]) (by rw [made]) (by rw [made]) (by rw [made])] at ends
  rw [← made, placeHolding_is_due calm kind (by rw [made]; exact due)]
  rw [settle_first (entered_tables tables i x) calm]
  have handled : (s.entered i x).handle ⟨x.deadline, .leaseExpiry, i⟩ = (s.entered i x).handleLeaseExpiry i lease := by
    rw [made]
    rfl
  rw [handled, ends, made]
  rfl

/-! ### Release and Return (R84, R85, R99) -/

theorem releaseHolding_drops {h : Holding} (live : h.state = .live) (shared : 1 < h.refs) (i : Nat) (now : Bool) :
    s.releaseHolding i h now =
      (s.setHolding i { h with refs := h.refs - 1 },
        { code := .ok, detail := 0, body := wordOf (h.refs - 1) :: words32 h.deadline }) := by
  rw [State.releaseHolding, live]
  refine (if_pos shared).trans ?_
  rw [← live]

/-- A holding and the figures of its pool, rewritten. -/
def State.converted (s : State) (i : Nat) (x : Holding) (q : Pool) : State :=
  { s with
    holdings := tablePut Holding.initial s.holdings i x
    pools := tablePut Pool.initial s.pools (s.holding i).pool q }

/-- The state with the deadlines withdrawn that a holding has among those reached. -/
def State.withdrawn (s : State) (i : Nat) : State :=
  { s with reached := s.reached.filter (fun d => !d.ofHolding i) }

theorem holding_converted (i k : Nat) (x : Holding) (q : Pool) :
    (s.converted i x q).holding k = if k = i then x else s.holding k := tableGet_put ..

theorem converted_tables (tables : TablesOk s) (i : Nat) (x : Holding) (q : Pool) : TablesOk (s.converted i x q) :=
  ⟨tables.1, tablePut_canonical tables.2 _ q, tables.3, tables.4, tables.5, tables.6, tables.7,
    tablePut_canonical tables.8 i x, tables.9⟩

theorem withdrawn_tables (tables : TablesOk s) (i : Nat) : TablesOk (s.withdrawn i) :=
  tables.withDeadlines _ s.atOnce s.choices

theorem noDrain_converted {x : Holding} (stays : NoDrain s i) (feature : x.feature = (s.holding i).feature) (q : Pool) :
    NoDrain (s.converted i x q) i := by
  refine noDrain_of_alike stays (fun _ => rfl) ?_ fun k other => ?_
  · rw [holding_converted, if_pos rfl, feature]
  · rw [holding_converted, if_neg other]

/-- A holding as it lingers (R85). -/
def Holding.lingered (h : Holding) (lingerEnd : Nat) : Holding :=
  { h with state := .lingering, refs := 0, deadline := lingerEnd }

/-- A pool with a holding's tokens added to its lingering figure (R58). -/
def Pool.lingered (q : Pool) (tokens : Nat) : Pool := { q with lingering := q.lingering + tokens }

theorem releaseHolding_lingers (calm : s.atOnce = []) {f : Feature} {h : Holding} (entry : s.holding i = h)
    (live : h.state = .live) (last : h.refs = 1) (known : s.feature h.feature = some f) (lingers : 0 < f.linger) :
    s.releaseHolding i h false =
      (State.settle
        { (s.converted i (h.lingered (f.clamp (s.siteTime + f.linger))) ((s.pool h.pool).lingered h.tokens)).withdrawn
            i with
          atOnce := dueNow s.siteTime (some ⟨f.clamp (s.siteTime + f.linger), .lingerEnd, i⟩) },
        { code := .ok, detail := 1, body := 0#16 :: words32 (f.clamp (s.siteTime + f.linger)) }) := by
  rw [State.releaseHolding, live]
  refine (if_neg (by omega)).trans ?_
  rw [State.releaseLast, featureOf_known known]
  refine (if_pos ⟨lingers, rfl⟩).trans ?_
  subst entry
  simp only [placeHolding_lodges (k := .lingerEnd) (x :=
    { s.holding i with state := .lingering, refs := 0, deadline := f.clamp (s.siteTime + f.linger) }) calm rfl]
  rfl

theorem endHolding_kept (tables : TablesOk s) (calm : s.atOnce = []) (stays : NoDrain s i) (evt : Nat) :
    s.endHolding i evt =
      (leftCounted s i evt (Holding.freeEntry (nextGen (s.holding i).gen))).entryFreed (some (s.holding i).pool) evt := by
  rw [endHolding_eq, uncount_kept tables calm rfl stays]

/-- A linger end that is reached at once frees the entry. -/
theorem lingered_ends (tables : TablesOk s) (calm : s.atOnce = []) (stays : NoDrain s i) (lingerEnd : Nat) (q : Pool) :
    State.settle
        { (s.converted i ((s.holding i).lingered lingerEnd) q).withdrawn i with
          atOnce := [⟨lingerEnd, .lingerEnd, i⟩] } =
      ((leftCounted (s.converted i ((s.holding i).lingered lingerEnd) q) i lingerEnd
          (Holding.freeEntry (nextGen (s.holding i).gen))).entryFreed (some (s.holding i).pool) lingerEnd).settle := by
  obtain ⟨u, made⟩ : ∃ u, u = s.converted i ((s.holding i).lingered lingerEnd) q := ⟨_, rfl⟩
  have look : (u.withdrawn i).holding i = u.holding i := rfl
  have own : (u.withdrawn i).holding i = (s.holding i).lingered lingerEnd := by
    rw [look, made, holding_converted, if_pos rfl]
  have kept : TablesOk (u.withdrawn i) := withdrawn_tables (made ▸ converted_tables tables ..) i
  have quiet : (u.withdrawn i).atOnce = [] := by
    rw [made]
    exact calm
  have still : NoDrain (u.withdrawn i) i := by
    rw [made]
    exact noDrain_converted (x := (s.holding i).lingered lingerEnd) stays rfl q
  have frees := handleLingerEnd_frees (s := u.withdrawn i) (i := i) (by rw [own]; rfl) lingerEnd
  rw [uncount_kept kept quiet rfl still, own] at frees
  rw [← made, settle_first kept quiet]
  refine (congrArg State.settle frees).trans ?_
  exact congrArg (fun u : State => (u.entryFreed (some (s.holding i).pool) lingerEnd).settle) (leftCounted_refiltered ..)

/-! ### Borrow (R95 to R98, R60, R102) -/

section Borrowing

variable {h : Holding} {f : Feature} (live : h.state = .live) (known : s.feature h.feature = some f) (i days : Nat)

include live

theorem borrowHolding_barred (barred : s.isBarred h.user = true) :
    s.borrowHolding i h days = (s, plain .barred 0) := by
  rw [State.borrowHolding, live]
  exact if_pos barred

include known

theorem borrowHolding_noBorrow (enabled : ¬s.isBarred h.user = true) (none : f.borrowMax = 0) :
    s.borrowHolding i h days = (s, plain .noBorrow 0) := by
  rw [State.borrowHolding, live, featureOf_known known]
  exact (if_neg enabled).trans (if_pos none)

theorem borrowHolding_shared (enabled : ¬s.isBarred h.user = true) (most : f.borrowMax ≠ 0) (shared : h.refs ≠ 1) :
    s.borrowHolding i h days = (s, plain .shared 0) := by
  rw [State.borrowHolding, live, featureOf_known known]
  exact (if_neg enabled).trans ((if_neg most).trans (if_pos shared))

theorem borrowHolding_capped (enabled : ¬s.isBarred h.user = true) (most : f.borrowMax ≠ 0) (alone : h.refs = 1)
    (beyond : (s.pool h.pool).borrowCap < (s.pool h.pool).borrowed + h.tokens) :
    s.borrowHolding i h days = (s, plain .borrowCap 0) := by
  rw [State.borrowHolding, live, featureOf_known known]
  exact (if_neg enabled).trans ((if_neg most).trans ((if_neg (not_not.mpr alone)).trans (if_pos beyond)))

end Borrowing

/-- A holding as it is borrowed (R96). -/
def Holding.borrowedTo (h : Holding) (borrowEnd : Nat) : Holding :=
  { h with state := .borrowed, refs := 1, deadline := borrowEnd }

/-- A pool with a holding's tokens added to its borrowed figure (R60). -/
def Pool.lent (q : Pool) (tokens : Nat) : Pool := { q with borrowed := q.borrowed + tokens }

/-- The borrow end that a number of days asks for (R96). -/
def State.borrowEnd (s : State) (f : Feature) (days : Nat) : Nat :=
  f.clamp (s.siteTime + min days f.borrowMax * 86400)

theorem borrowHolding_converts (calm : s.atOnce = []) {f : Feature} {h : Holding} (entry : s.holding i = h)
    (live : h.state = .live) (known : s.feature h.feature = some f) (enabled : ¬s.isBarred h.user = true)
    (most : f.borrowMax ≠ 0) (alone : h.refs = 1)
    (within : (s.pool h.pool).borrowed + h.tokens ≤ (s.pool h.pool).borrowCap) (days : Nat) :
    s.borrowHolding i h days =
      (State.settle
        { (s.converted i (h.borrowedTo (s.borrowEnd f days)) ((s.pool h.pool).lent h.tokens)).withdrawn i with
          atOnce := dueNow s.siteTime (some ⟨s.borrowEnd f days, .borrowEnd, i⟩) },
        { code := .ok, detail := min days f.borrowMax,
          body := words32 (s.borrowEnd f days) ++ [wordOf h.seats, wordOf h.tokens] }) := by
  rw [State.borrowHolding, live, featureOf_known known]
  refine (if_neg enabled).trans ((if_neg most).trans ((if_neg (not_not.mpr alone)).trans
    ((if_neg (Nat.not_lt.mpr within)).trans ?_)))
  subst entry
  rw [State.convert]
  simp only [placeHolding_lodges (k := .borrowEnd) (x :=
    { s.holding i with
      state := .borrowed, refs := 1
      deadline := f.clamp (s.siteTime + min days f.borrowMax * Config.daySeconds) }) calm rfl]
  rfl

/-- A borrow end that is reached at once lapses the holding. -/
theorem borrowed_ends (tables : TablesOk s) (calm : s.atOnce = []) (stays : NoDrain s i) (borrowEnd : Nat) (q : Pool) :
    State.settle
        { (s.converted i ((s.holding i).borrowedTo borrowEnd) q).withdrawn i with
          atOnce := [⟨borrowEnd, .borrowEnd, i⟩] } =
      ((leftCounted (s.converted i ((s.holding i).borrowedTo borrowEnd) q) i borrowEnd
          ((s.holding i).lapsedAs .borrowEnd borrowEnd)).scan (s.holding i).pool borrowEnd).settle := by
  obtain ⟨u, made⟩ : ∃ u, u = s.converted i ((s.holding i).borrowedTo borrowEnd) q := ⟨_, rfl⟩
  have look : (u.withdrawn i).holding i = u.holding i := rfl
  have own : (u.withdrawn i).holding i = (s.holding i).borrowedTo borrowEnd := by
    rw [look, made, holding_converted, if_pos rfl]
  have kept : TablesOk (u.withdrawn i) := withdrawn_tables (made ▸ converted_tables tables ..) i
  have quiet : (u.withdrawn i).atOnce = [] := by
    rw [made]
    exact calm
  have still : NoDrain (u.withdrawn i) i := by
    rw [made]
    exact noDrain_converted (x := (s.holding i).borrowedTo borrowEnd) stays rfl q
  have lapses := handleBorrowEnd_lapses (s := u.withdrawn i) (i := i) (by rw [own]; rfl) borrowEnd
  rw [uncount_kept kept quiet rfl still, own] at lapses
  rw [← made, settle_first kept quiet]
  refine (congrArg State.settle lapses).trans ?_
  exact congrArg (fun u : State => (u.scan (s.holding i).pool borrowEnd).settle) (leftCounted_refiltered ..)

end Sys2Proof.Machine

namespace Sys2Proof.Claims

open Sys2Proof.Machine

/-- Settles O25: the fresh lease lies ahead, or is reached before the reply. -/
theorem renewGivesAFreshLease : Obligations.RenewGivesAFreshLease := by
  intro s rest tag index gen f taking calm i h expiry inside current live known
  have named : (s.leaving rest).handleNames index.toNat gen.toNat = some h :=
    handleNames_state (s := s.leaving rest) current live nofun
  have served := serveRenew_named (f := [0x0204#16, tag, index, gen]) inside named
  rw [leaving_eq_relink] at served
  have renewed := serveKind_answered taking (kind := 0x02#8) (by decide) rfl (.inl rfl)
    (served.trans (relink_renewHolding s _ i h))
  refine ⟨fun barred => ?_, fun enabled ahead => ?_, fun enabled due tables stays => ?_⟩
  · rw [renewHolding_barred live ((isBarred_iff ..).mpr barred) i] at renewed
    exact renewed
  · have kind : ({ h with deadline := s.leaseEnd f } : Holding).state.deadlineKind = some .leaseExpiry :=
      congrArg _ live
    rw [renewHolding_fresh live (fun barred => enabled ((isBarred_iff ..).mp barred)) known i,
      placeHolding_lies_ahead (x := { h with deadline := s.leaseEnd f }) calm kind ahead,
      settle_none (s := s.entered i { h with deadline := s.leaseEnd f }) calm] at renewed
    exact renewed
  · intro reason lapsed t scanned
    have ends := renewed_lapses tables calm rfl live (lease := s.leaseEnd f) due stays
    rw [known] at ends
    rw [renewHolding_fresh live (fun barred => enabled ((isBarred_iff ..).mp barred)) known i,
      ends.trans (scanned_scan scanned (leftCounted_tables tables i expiry) calm).1] at renewed
    exact renewed

/-- Settles O26: a reference dropped, a linger, or the end of the holding and what follows it. -/
theorem releaseDropsAReferenceOrEndsTheHolding : Obligations.ReleaseDropsAReferenceOrEndsTheHolding := by
  intro s rest tag index gen flag f taking tables calm i h lingerEnd inside current live known least
  have named : (s.leaving rest).handleNames index.toNat gen.toNat = some h :=
    handleNames_state (s := s.leaving rest) current live nofun
  have served := serveRelease_named (f := [0x0305#16, tag, index, gen, flag]) inside least named
  rw [leaving_eq_relink] at served
  have released := serveKind_answered taking (kind := 0x03#8) (by decide) rfl (.inl rfl)
    (served.trans (relink_releaseHolding s _ i h (flag.toNat == 1)))
  refine ⟨fun shared => ?_, fun last lingers clear ahead => ?_, fun last lingers clear due stays => ?_,
    fun last ends stays => ?_⟩
  · rw [releaseHolding_drops live shared] at released
    exact released
  · subst clear
    have quiet : ((s.converted i (h.lingered lingerEnd) ((s.pool h.pool).lingered h.tokens)).withdrawn i).atOnce = [] :=
      calm
    have lodgesNone := dueNow_ahead (d := ⟨lingerEnd, .lingerEnd, i⟩) ahead
    rw [show ((0#16).toNat == 1) = false from rfl, releaseHolding_lingers calm rfl live last known lingers, lodgesNone,
      eq_of_calm quiet, settle_none quiet] at released
    exact released
  · intro lingering t scanned
    subst clear
    have lodgesOne := dueNow_due (d := ⟨lingerEnd, .lingerEnd, i⟩) due
    have kept := leftCounted_tables (x := Holding.freeEntry (nextGen h.gen))
      (converted_tables tables i (h.lingered lingerEnd) ((s.pool h.pool).lingered h.tokens)) i lingerEnd
    have settles := (freedScanned_freed (s := leftCounted
      (s.converted i (h.lingered lingerEnd) ((s.pool h.pool).lingered h.tokens)) i lingerEnd
      (Holding.freeEntry (nextGen h.gen))) scanned kept calm).1
    rw [show ((0#16).toNat == 1) = false from rfl, releaseHolding_lingers calm rfl live last known lingers, lodgesOne,
      lingered_ends tables calm stays] at released
    exact released.trans (next_answered settles rest _)
  · intro done freed
    have now : (flag.toNat == 1) = true ∨ (s.featureOf h.feature).linger = 0 := by
      rw [featureOf_known known]
      exact ends.symm.imp_left fun set => by rw [set]; rfl
    rw [releaseHolding_ends live last now, endHolding_kept tables calm stays] at released
    refine ⟨fun none => ?_, fun t scanned => ?_⟩
    · rw [freed_unserved calm none] at released
      exact released
    · rw [(freedScanned_freed scanned (leftCounted_tables tables i s.siteTime) calm).1] at released
      exact released

/-- Settles O28: the end of the holding and what follows it. -/
theorem returnFreesTheBorrowedHolding : Obligations.ReturnFreesTheBorrowedHolding := by
  intro s rest tag index gen taking tables calm i h done freed inside current borrowed stays
  have named : (s.leaving rest).handleNames index.toNat gen.toNat = some h :=
    handleNames_state (s := s.leaving rest) current borrowed nofun
  have served := serveReturn_named (f := [0x0504#16, tag, index, gen]) inside named
  rw [leaving_eq_relink] at served
  have returned := serveKind_answered taking (kind := 0x05#8) (by decide) rfl (.inl rfl)
    (served.trans (relink_returnHolding s _ i h))
  rw [returnHolding_ends borrowed, endHolding_kept tables calm stays] at returned
  refine ⟨fun none => ?_, fun t scanned => ?_⟩
  · rw [freed_unserved calm none] at returned
    exact returned
  · rw [(freedScanned_freed scanned (leftCounted_tables tables i s.siteTime) calm).1] at returned
    exact returned

/-- Settles O27: the checks in their order, and the conversion with what is reached at once. -/
theorem borrowConvertsTheHolding : Obligations.BorrowConvertsTheHolding := by
  intro s rest tag index gen days f taking calm opened i h q taken borrowEnd inside asked current live known
  have named : (s.leaving rest).handleNames index.toNat gen.toNat = some h :=
    handleNames_state (s := s.leaving rest) current live nofun
  have served := serveBorrow_named (s := s.leaving rest) (f := [0x0405#16, tag, index, gen, days]) opened inside asked
    named
  rw [leaving_eq_relink] at served
  have borrows := serveKind_answered taking (kind := 0x04#8) (by decide) rfl (.inl rfl)
    (served.trans (relink_borrowHolding s _ i h days.toNat))
  have allowed (enabled : ¬Barred s h.user) : ¬s.isBarred h.user = true := fun barred =>
    enabled ((isBarred_iff ..).mp barred)
  refine ⟨fun barred => ?_, fun enabled none => ?_, fun enabled most shared => ?_, fun enabled most alone beyond => ?_,
    fun enabled most alone within ahead => ?_, fun enabled most alone within due tables stays => ?_⟩
  · rw [borrowHolding_barred live i _ ((isBarred_iff ..).mpr barred)] at borrows
    exact borrows
  · rw [borrowHolding_noBorrow live known i _ (allowed enabled) none] at borrows
    exact borrows
  · rw [borrowHolding_shared live known i _ (allowed enabled) most (by omega)] at borrows
    exact borrows
  · rw [borrowHolding_capped live known i _ (allowed enabled) most alone beyond] at borrows
    exact borrows
  · have quiet : ((s.converted i (h.borrowedTo (s.borrowEnd f days.toNat)) (q.lent h.tokens)).withdrawn i).atOnce = [] :=
      calm
    have lodgesNone := dueNow_ahead (d := ⟨s.borrowEnd f days.toNat, .borrowEnd, i⟩) ahead
    rw [borrowHolding_converts calm rfl live known (allowed enabled) most alone within, lodgesNone, eq_of_calm quiet,
      settle_none quiet] at borrows
    exact borrows
  · intro converted lapsed t scanned
    have lodgesOne := dueNow_due (d := ⟨s.borrowEnd f days.toNat, .borrowEnd, i⟩) due
    have kept := leftCounted_tables (x := lapsed)
      (converted_tables tables i (h.borrowedTo (s.borrowEnd f days.toNat)) (q.lent h.tokens)) i borrowEnd
    have settles := (scanned_scan (s := leftCounted
      (s.converted i (h.borrowedTo (s.borrowEnd f days.toNat)) (q.lent h.tokens)) i borrowEnd lapsed) scanned kept
      calm).1
    rw [borrowHolding_converts calm rfl live known (allowed enabled) most alone within, lodgesOne,
      borrowed_ends tables calm stays] at borrows
    exact borrows.trans (next_answered settles rest _)

end Sys2Proof.Claims
end

section
/-! SUPPORT. Checkout from the choice of its path on: the new holding, the joined one and the Checkout that is held back,
with what is reached at once: the proofs of O17 to O19. -/

namespace Sys2Proof.Machine

open Sys2Proof.Claims

variable {s t : State} {a : Asking} {f : Feature} {i evt : Nat}

/-! ### A Checkout that passes its checks (R74 to R76) -/

theorem relink_queueCheckout (l : Relinking) (f : Feature) (a : Asking) (wait j : Nat) :
    (s.relink l).queueCheckout f a wait j = (s.queueCheckout f a wait j).relink l := by
  have waiter : (s.relink l).waiter j = s.waiter j := rfl
  have time : (s.relink l).siteTime = s.siteTime := rfl
  rw [State.queueCheckout, State.queueCheckout, waiter, time, relink_placeWaiter]
  rfl

theorem relink_decideCheckout (l : Relinking) (f : Feature) (a : Asking) (wait : Nat) :
    (s.relink l).decideCheckout f a wait = ((s.decideCheckout f a wait).1.relink l, (s.decideCheckout f a wait).2) := by
  have path : (s.relink l).choosePath f.sharing a = s.choosePath f.sharing a := rfl
  have cost (path : Path) : (s.relink l).pathCost f.weight a.seats path = s.pathCost f.weight a.seats path := by
    cases path <;> rfl
  have full (path : Path) : (s.relink l).referencesFull path = s.referencesFull path := by cases path <;> rfl
  have cause (cost : Nat) : (s.relink l).chargeCause f.pool a.project a.cls cost =
      s.chargeCause f.pool a.project a.cls cost := rfl
  have entry (path : Path) : (s.relink l).pathEntry path = s.pathEntry path := by cases path <;> rfl
  have waiter : (s.relink l).freeWaiter = s.freeWaiter := rfl
  have time : (s.relink l).siteTime = s.siteTime := rfl
  unfold State.decideCheckout State.holdBack
  simp only [path, cost, full, cause, entry, waiter, time, relink_grantPath, relink_settle, relink_queueCheckout]
  split
  · rfl
  · split
    · split
      · rfl
      · split <;> rfl
    · split
      · rfl
      · refine Prod.ext rfl ?_
        cases s.choosePath f.sharing a <;> rfl

theorem serveCheckout_admitted {x : Frame} (admitted : Admitted s (checkoutAsking x s) f) :
    serveCheckout x s = s.decideCheckout f (checkoutAsking x s) (checkoutWait x) := by
  obtain ⟨opened, fields, known, licensed, standing, project, verdict⟩ := admitted
  have passes : s.checkoutRefusal (checkoutAsking x s) = none := by
    rw [checkoutRefusal_verdict known licensed standing project, if_pos verdict]
  rw [serveCheckout, if_neg (by rw [opened]; nofun), checkoutBadWord_none fields]
  simp only [passes, featureOf_known known]

theorem exec_checkout {rest : List Frame} {tag feature user host project seats wait cls : Word}
    (taking : Taking s (checkoutFrame tag feature user host project seats wait cls) rest)
    (admitted : Admitted s (asked s feature user host project seats cls) f) :
    exec .checkout s =
      let decided := s.decideCheckout f (asked s feature user host project seats cls) (min wait.toNat 3600)
      .next (answered decided.1 rest
        (reply 0x01#8 tag decided.2.code.byte decided.2.detail decided.2.body)) := by
  have served := serveCheckout_admitted (s := s.leaving rest) (f := f)
    (x := checkoutFrame tag feature user host project seats wait cls)
    ⟨admitted.opened, admitted.fields, admitted.known, admitted.licensed, admitted.standing, admitted.project,
      admitted.verdict⟩
  refine serveKind_answered taking (kind := 0x01#8) rfl rfl (.inl rfl) (served.trans ?_)
  exact relink_decideCheckout (s := s) { fifo := fun _ => rest } f _ _

/-! ### How it is decided (R77 to R81) -/

theorem decideCheckout_full (full : s.referencesFull (s.choosePath f.sharing a) = true) (wait : Nat) :
    s.decideCheckout f a wait = (s, plain .tableFull 1) := if_pos full

section Open

variable {path : Path} {cost : Nat} (byKey : s.choosePath f.sharing a = path)
  (priced : s.pathCost f.weight a.seats path = cost) (room : ¬s.referencesFull path = true)

include byKey priced room

theorem decideCheckout_heldBack {cause : Nat} (costs : cost ≠ 0)
    (fails : s.chargeCause f.pool a.project a.cls cost = some cause) (wait : Nat) :
    s.decideCheckout f a wait = s.holdBack f a wait cause := by
  unfold State.decideCheckout
  simp only [byKey, priced, if_neg room, if_neg costs, fails]

theorem decideCheckout_charged (charged : cost = 0 ∨ s.chargeCause f.pool a.project a.cls cost = none) (wait : Nat) :
    s.decideCheckout f a wait =
      (s.pathEntry path).elim (s, plain .tableFull 0) fun i =>
        ((s.grantPath f a path cost i s.siteTime).settle,
          grantAnswer s (s.grantPath f a path cost i s.siteTime) a path i) := by
  have passes : (if cost = 0 then none else s.chargeCause f.pool a.project a.cls cost) = none := by
    split
    · rfl
    · rename_i costs
      exact charged.resolve_left costs
  unfold State.decideCheckout
  simp only [byKey, priced, if_neg room, passes]
  cases s.pathEntry path <;> rfl

end Open

/-! ### A lease that is reached at once (R132, R142) -/

theorem not_ending_of_licensed {now lease : Nat} (licensed : Licensed f now) (due : lease ≤ now) :
    f.endInstant ≠ some lease := by
  intro ending
  obtain ⟨d, lastDay, same⟩ := Option.map_eq_some_iff.mp ending
  have ahead := licensed.2.2 d lastDay
  exact absurd (same ▸ due) (Nat.not_le.mpr ahead)

theorem tables_of_due {l : List Deadline} (ok : TablesOk { s with atOnce := l }) : TablesOk s :=
  ⟨ok.1, ok.2, ok.3, ok.4, ok.5, ok.6, ok.7, ok.8, ok.9⟩

theorem noDrain_active (known : s.feature (s.holding i).feature = some f) (active : f.state = .active) : NoDrain s i := by
  intro g record retiring
  obtain rfl : f = g := Option.some.inj (known.symm.trans record)
  rw [active] at retiring
  cases retiring

/-- The lease of a licensed feature, reached at once, lapses its holding with reason LEASE. -/
theorem lease_lapses (tables : TablesOk s) (calm : s.atOnce = []) {h : Holding} (entry : s.holding i = h)
    (live : h.state = .live) (known : s.feature h.feature = some f) (licensed : Licensed f s.siteTime)
    {lease : Nat} (due : lease ≤ s.siteTime) :
    State.settle { s with atOnce := [⟨lease, .leaseExpiry, i⟩] } =
      ((leftCounted s i lease (h.lapsedAs .lease lease)).scan h.pool lease).settle := by
  subst entry
  have lasting : ¬(s.feature (s.holding i).feature).bind Feature.endInstant = some lease := by
    rw [known]
    exact not_ending_of_licensed licensed due
  have lapses := handleLeaseExpiry_lapses live lease
  rw [if_neg lasting, uncount_kept tables calm rfl (noDrain_active known licensed.1)] at lapses
  rw [settle_first tables calm]
  exact congrArg State.settle lapses

/-! ### New holdings, merges and reattaches (R79 to R81) -/

/-- A state with a new holding, its deadline not yet looked at. -/
def State.withNew (s : State) (f : Feature) (a : Asking) (i evt : Nat) : State :=
  { s with
    reached := s.reached.filter (fun d => !d.ofHolding i)
    holdings := tablePut Holding.initial s.holdings i (s.newHolding f a (f.weight * a.seats) i)
    pools := tablePut Pool.initial s.pools f.pool
      (chargedPool (s.pool f.pool) (f.weight * a.seats) (s.reserveSum f.pool) evt)
    allotments := postedAllotments s.allotments a.project f.pool (fun used => used + f.weight * a.seats) }

/-- A state with a holding that an asking has joined, its pool's figures being `q` but for the charge. -/
def State.withJoined (s : State) (x : Holding) (q : Pool) (cost i evt : Nat) : State :=
  let pool := (s.holding i).pool
  { s with
    reached := s.reached.filter (fun d => !d.ofHolding i)
    holdings := tablePut Holding.initial s.holdings i x
    pools := if cost = 0 then tablePut Pool.initial s.pools pool q else
      tablePut Pool.initial s.pools pool (chargedPool q cost (s.reserveSum pool) evt)
    allotments := if cost = 0 then s.allotments else
      postedAllotments s.allotments (s.holding i).project pool (fun used => used + cost) }

theorem tablePut_same {α : Type} [DecidableEq α] {d : α} {l : Table α} (canonical : TableCanonical d l) (k : Nat) :
    tablePut d l k (tableGet d l k) = l := by
  refine rising_ext (tablePut_canonical canonical k _).1 canonical.1 fun j => ?_
  have found : tableFind l k = if tableGet d l k = d then none else some (tableGet d l k) := by
    rw [tableGet]
    cases listed : tableFind l k with
    | none => simp
    | some v => exact (if_neg (canonical.2 (k, v) (mem_of_tableFind listed))).symm
  unfold tablePut
  split
  · rename_i initial
    rw [tableFind_erase]
    split
    · rename_i same
      rw [same, found, if_pos initial]
    · rfl
  · rename_i other
    rw [tableFind_insert]
    split
    · rename_i same
      rw [same, found, if_neg other]
    · rfl

theorem grantPath_new (tables : TablesOk s) (calm : s.atOnce = []) (f : Feature) (a : Asking) (i evt : Nat) :
    s.grantPath f a .fresh (f.weight * a.seats) i evt =
      { s.withNew f a i evt with atOnce := dueNow s.siteTime (some ⟨s.leaseEnd f, .leaseExpiry, i⟩) } := by
  rw [State.grantPath, makeHolding_written tables.pools_canonical, calm]
  rfl

theorem grantPath_merge (tables : TablesOk s) (calm : s.atOnce = []) (live : (s.holding i).state = .live) (f : Feature)
    (a : Asking) (cost evt : Nat) :
    s.grantPath f a (.merge i) cost i evt =
      { s.withJoined ((s.holding i).joinedBy a.seats ((s.holding i).refs + 1) cost (s.leaseEnd f))
          (s.pool (s.holding i).pool) cost i evt with
        atOnce := dueNow s.siteTime (some ⟨s.leaseEnd f, .leaseExpiry, i⟩) } := by
  have same : tablePut Pool.initial s.pools (s.holding i).pool (s.pool (s.holding i).pool) = s.pools :=
    tablePut_same tables.pools_canonical _
  rw [State.grantPath, mergeHolding_written tables.pools_canonical live, calm, State.withJoined, same]
  rfl

theorem grantPath_reattach (tables : TablesOk s) (calm : s.atOnce = []) (f : Feature) (a : Asking)
    (cost i evt : Nat) :
    s.grantPath f a (.reattach i) cost i evt =
      { s.withJoined ((s.holding i).joinedBy a.seats 1 cost (s.leaseEnd f))
          { s.pool (s.holding i).pool with
            lingering := (s.pool (s.holding i).pool).lingering - (s.holding i).tokens } cost i evt with
        atOnce := dueNow s.siteTime (some ⟨s.leaseEnd f, .leaseExpiry, i⟩) } := by
  rw [State.grantPath, reattachHolding_written tables.pools_canonical, calm, State.withJoined]
  by_cases free : cost = 0
  · simp only [if_pos free]
    rfl
  · simp only [if_neg free]
    rfl

/-- What is granted stands in its entry. -/
theorem holding_withNew (f : Feature) (a : Asking) (i evt : Nat) :
    (s.withNew f a i evt).holding i = s.newHolding f a (f.weight * a.seats) i := tableGet_put_same ..

theorem holding_withJoined (x : Holding) (q : Pool) (cost i evt : Nat) :
    (s.withJoined x q cost i evt).holding i = x := tableGet_put_same ..

theorem merge_entry (tables : TablesOk s) (path : s.choosePath f.sharing a = .merge i) :
    (s.holding i).state = .live ∧ (s.holding i).feature = a.feature := by
  obtain ⟨shared, separate⟩ := pathFollowsTheKeyIndex s f.sharing a tables
  by_cases kind : f.sharing = .separate
  · exact absurd path ((separate kind).1 i)
  · obtain ⟨live, feature, -⟩ := (shared kind).1 i path
    exact ⟨live, feature⟩

theorem reattach_entry (tables : TablesOk s) (path : s.choosePath f.sharing a = .reattach i) :
    (s.holding i).state = .lingering ∧ (s.holding i).feature = a.feature := by
  obtain ⟨shared, separate⟩ := pathFollowsTheKeyIndex s f.sharing a tables
  by_cases kind : f.sharing = .separate
  · obtain ⟨lingers, ⟨feature, -⟩, -⟩ := (separate kind).2.1 i path
    exact ⟨lingers, feature⟩
  · obtain ⟨lingers, feature, -⟩ := (shared kind).2.1 i path
    exact ⟨lingers, feature⟩

/-- What a granted Checkout comes to: a lease that lies ahead, or one that is reached at once and lapses. -/
theorem settle_grant {u : State} {path : Path} {cost : Nat} (grant : s.grantPath f a path cost i evt =
      { u with atOnce := dueNow s.siteTime (some ⟨s.leaseEnd f, .leaseExpiry, i⟩) })
    (tables : TablesOk s) (calm : u.atOnce = []) {h : Holding} (entry : u.holding i = h) (live : h.state = .live)
    (known : u.feature h.feature = some f) (now : u.siteTime = s.siteTime) (licensed : Licensed f s.siteTime) :
    (s.siteTime < s.leaseEnd f → (s.grantPath f a path cost i evt).settle = u)
      ∧ (s.leaseEnd f ≤ s.siteTime → ∀ t,
        Scanned (leftCounted u i (s.leaseEnd f) (h.lapsedAs .lease (s.leaseEnd f))) h.pool (s.leaseEnd f) t →
        (s.grantPath f a path cost i evt).settle = t) := by
  have granted := tables.grantPath f a path cost i evt
  rw [grant] at granted ⊢
  have uTables := tables_of_due granted
  refine ⟨fun ahead => ?_, fun due t scanned => ?_⟩
  · rw [dueNow_ahead ahead, eq_of_calm calm, settle_none calm]
  · rw [dueNow_due due, lease_lapses uTables calm entry live known (now ▸ licensed) (now ▸ due)]
    exact (scanned_scan scanned (leftCounted_tables uTables ..) calm).1

theorem reply_grant (tag : Word) (code : Byte) (detail i : Nat) (h : Holding) :
    reply 0x01#8 tag code detail
      ([wordOf i, wordOf h.gen, wordOf h.seats, wordOf h.refs, wordOf h.tokens] ++ words32 h.deadline) =
      grantReply tag code detail i h := by
  have header : (0x01#8 ++ BitVec.ofNat 8 (3 + 7) : Word) = 0x010A#16 := by decide
  rw [grantReply, ← header]
  rfl

/-- A Checkout that is granted is answered with the figures of the holding as the grant leaves it (R82). -/
theorem exec_checkout_grants {rest : List Frame} {tag feature user host project seats wait cls : Word}
    (taking : Taking s (checkoutFrame tag feature user host project seats wait cls) rest) (tables : TablesOk s)
    (asks : a = asked s feature user host project seats cls) (admitted : Admitted s a f) {path : Path} {cost : Nat}
    (byKey : s.choosePath f.sharing a = path) (priced : s.pathCost f.weight a.seats path = cost)
    (room : ¬s.referencesFull path = true) (charged : cost = 0 ∨ s.chargeCause f.pool a.project a.cls cost = none)
    (entry : s.pathEntry path = some i) {u : State}
    (grant : s.grantPath f a path cost i s.siteTime =
      { u with atOnce := dueNow s.siteTime (some ⟨s.leaseEnd f, .leaseExpiry, i⟩) })
    (calm : u.atOnce = []) {h : Holding} (held : u.holding i = h) (live : h.state = .live)
    (known : u.feature h.feature = some f) (now : u.siteTime = s.siteTime) {code : ReplyCode} {detail : Nat}
    (answers : ∀ after : State, grantAnswer s after a path i = { code := code, detail := detail, body := after.grantBody i }) :
    (s.siteTime < s.leaseEnd f →
      exec .checkout s = .next (answered u rest (grantReply tag code.byte detail i h)))
    ∧ (s.leaseEnd f ≤ s.siteTime → ∀ t,
      Scanned (leftCounted u i (s.leaseEnd f) (h.lapsedAs .lease (s.leaseEnd f))) h.pool (s.leaseEnd f) t →
      exec .checkout s = .next (answered t rest (grantReply tag code.byte detail i h))) := by
  subst asks
  have look : (s.grantPath f (asked s feature user host project seats cls) path cost i s.siteTime).holding i = h := by
    rw [grant]
    exact held
  have replied := exec_checkout taking admitted
  rw [decideCheckout_charged byKey priced room charged, entry, Option.elim_some] at replied
  simp only [answers, State.grantBody, look, reply_grant] at replied
  obtain ⟨lies, isDue⟩ := settle_grant grant tables calm held live known now admitted.licensed
  exact ⟨fun ahead => replied.trans (next_answered (lies ahead) ..),
    fun due t scanned => replied.trans (next_answered (isDue due t scanned) ..)⟩

end Sys2Proof.Machine

namespace Sys2Proof.Claims

open Sys2Proof.Machine

/-- Settles O17: the new holding as the model makes it, its lease ahead or reached before the reply. -/
theorem checkoutMakesANewHolding : Obligations.CheckoutMakesANewHolding := by
  intro s rest tag feature user host project seats wait cls f i taking tables calm a cost expiry old made charged lapsed
    admitted fresh passes entry
  exact exec_checkout_grants (path := .fresh) (cost := cost) (u := s.withNew f a i s.siteTime)
    (h := s.newHolding f a cost i) (code := .granted) (detail := 0) taking tables rfl admitted fresh
    rfl nofun (.inr passes) entry (grantPath_new tables calm f a i s.siteTime) calm
    (holding_withNew f a i s.siteTime) rfl admitted.known rfl fun _ => rfl

/-- Settles O18: the joined holding as the model makes it, its lease ahead or reached before the reply. -/
theorem checkoutJoinsAHolding : Obligations.CheckoutJoinsAHolding := by
  intro s rest tag feature user host project seats wait cls f i taking tables calm held a h q cost expiry detail joined
    base posted grants admitted charged
  refine ⟨fun path room => ?_, fun path => ?_⟩
  · intro merged
    obtain ⟨live, keyed⟩ := merge_entry tables path
    have written : merged = s.withJoined (joined (h.refs + 1)) q cost i s.siteTime := by
      have same : tablePut Pool.initial s.pools h.pool q = s.pools := tablePut_same tables.pools_canonical h.pool
      rw [State.withJoined, same]
      by_cases free : cost = 0
      · simp only [merged, if_pos free]
        rfl
      · simp only [merged, if_neg free]
        rfl
    rw [written]
    exact exec_checkout_grants (h := h.joinedBy a.seats (h.refs + 1) cost expiry) (code := .merged) (detail := detail)
      taking tables rfl admitted path rfl
      (by simpa [State.referencesFull, Config.fullReferences] using room) charged rfl
      (grantPath_merge tables calm live f a cost s.siteTime) calm (holding_withJoined ..) rfl
      (keyed ▸ admitted.known) rfl fun _ => rfl
  · intro taken reattached
    obtain ⟨-, keyed⟩ := reattach_entry tables path
    have written : reattached = s.withJoined (joined 1) taken cost i s.siteTime := by
      rw [State.withJoined]
      by_cases free : cost = 0
      · simp only [reattached, if_pos free]
        rfl
      · simp only [reattached, if_neg free]
        rfl
    rw [written]
    exact exec_checkout_grants (h := h.joinedBy a.seats 1 cost expiry) (code := .reattached) (detail := detail) taking tables rfl admitted path rfl nofun charged rfl
      (grantPath_reattach tables calm f a cost i s.siteTime) calm (holding_withJoined ..) rfl
      (keyed ▸ admitted.known) rfl fun _ => rfl

end Sys2Proof.Claims
end

section
/-! SUPPORT. The Checkout that is held back: no entry to be had, no waiter entry, or a place in the queue: the proof
of O19. -/

namespace Sys2Proof.Machine

open Sys2Proof.Claims

variable {s t : State} {a : Asking} {f : Feature} {j : Nat}

theorem exec_checkout_decided {rest : List Frame} {tag feature user host project seats wait cls : Word}
    (taking : Taking s (checkoutFrame tag feature user host project seats wait cls) rest)
    (admitted : Admitted s (asked s feature user host project seats cls) f) {x : Answer}
    (decided : s.decideCheckout f (asked s feature user host project seats cls) (min wait.toNat 3600) = (t, x)) :
    exec .checkout s = .next (answered t rest (reply 0x01#8 tag x.code.byte x.detail x.body)) := by
  have replied := exec_checkout taking admitted
  rw [decided] at replied
  exact replied

theorem exec_checkout_refused {rest : List Frame} {tag feature user host project seats wait cls : Word}
    (taking : Taking s (checkoutFrame tag feature user host project seats wait cls) rest)
    (admitted : Admitted s (asked s feature user host project seats cls) f) {code : ReplyCode} {detail : Nat}
    (decided : s.decideCheckout f (asked s feature user host project seats cls) (min wait.toNat 3600) =
      (s, plain code detail)) :
    exec .checkout s = .next (answered s rest [0x0103#16, tag, outcome code.byte detail]) := by
  have header : (0x01#8 ++ BitVec.ofNat 8 (3 + 0) : Word) = 0x0103#16 := by decide
  have replied := exec_checkout_decided taking admitted decided
  rw [← header]
  exact replied

/-! ### The entry taken by a waiter (R111) -/

theorem freeWaiter_lowest (inside : j < 256) (free : (s.waiter j).state = .free)
    (lowest : ∀ k, k < j → (s.waiter k).state ≠ .free) : s.freeWaiter = some j := by
  cases found : s.freeWaiter with
  | none =>
    have used := lowestFrom_none found j (Nat.zero_le _) (by simpa [Config.waiterEntries] using inside)
    simp [free] at used
  | some k =>
    obtain ⟨-, -, good, before⟩ := lowestFrom_some found
    have frees : (s.waiter k).state = .free := by simpa using good
    have reaches : ¬k < j := fun less => lowest k less frees
    have first : ¬j < k := fun less => by simpa [free] using before j (Nat.zero_le _) less
    rw [Nat.le_antisymm (Nat.not_lt.mp first) (Nat.not_lt.mp reaches)]

theorem freeWaiter_none (full : ∀ j, j < 256 → (s.waiter j).state ≠ .free) : s.freeWaiter = none := by
  cases found : s.freeWaiter with
  | none => rfl
  | some k =>
    obtain ⟨-, inside, good, -⟩ := lowestFrom_some found
    exact absurd (by simpa using good) (full k (by simpa [Config.waiterEntries] using inside))

/-! ### A place in the queue (R110, R111) -/

/-- The record of a Checkout that waits. -/
def State.queuedAs (s : State) (f : Feature) (a : Asking) (wait j : Nat) : Waiter :=
  { Waiter.freeEntry (s.waiter j).gen with
    state := .waiting
    feature := a.feature
    user := a.user
    host := a.host
    project := a.project
    seats := a.seats
    cls := a.cls
    deadline := f.clamp (s.siteTime + wait) }

/-- A state with a waiter queued, its deadline not yet looked at. -/
def State.withQueued (s : State) (f : Feature) (a : Asking) (wait j : Nat) : State :=
  { s with
    reached := s.reached.filter (fun d => !d.ofWaiter j)
    waiters := tablePut Waiter.initial s.waiters j (s.queuedAs f a wait j)
    pools := tablePut Pool.initial s.pools f.pool
      { s.pool f.pool with queue := s.joined (s.pool f.pool).queue j a.cls } }

theorem not_queued (queues : QueuesOk s) (free : (s.waiter j).state = .free) (p : Nat) : j ∉ (s.pool p).queue := by
  intro queued
  have waits := queues.queued_waits p j queued
  rw [free] at waits
  cases waits

theorem takeWhile_class {queue : List Nat} (same : ∀ k ∈ queue, (t.waiter k).cls = (s.waiter k).cls) (cls : Nat) :
    queue.takeWhile (fun k => decide (cls ≤ (t.waiter k).cls)) =
    queue.takeWhile (fun k => decide (cls ≤ (s.waiter k).cls)) := by
  induction queue with
  | nil => rfl
  | cons k l ih =>
    rw [List.takeWhile_cons, List.takeWhile_cons, same k (List.mem_cons_self ..),
      ih fun m mem => same m (List.mem_cons_of_mem _ mem)]

theorem dropWhile_class {queue : List Nat} (same : ∀ k ∈ queue, (t.waiter k).cls = (s.waiter k).cls) (cls : Nat) :
    queue.dropWhile (fun k => decide (cls ≤ (t.waiter k).cls)) =
    queue.dropWhile (fun k => decide (cls ≤ (s.waiter k).cls)) := by
  induction queue with
  | nil => rfl
  | cons k l ih =>
    rw [List.dropWhile_cons, List.dropWhile_cons, same k (List.mem_cons_self ..)]
    split
    · exact ih fun m mem => same m (List.mem_cons_of_mem _ mem)
    · rfl

theorem joined_congr {queue : List Nat} (same : ∀ k ∈ queue, (t.waiter k).cls = (s.waiter k).cls) (cls : Nat) :
    t.joined queue j cls = s.joined queue j cls := by
  rw [State.joined, State.joined, takeWhile_class same, dropWhile_class same]

theorem joined_filter {queue : List Nat} (absent : j ∉ queue) (cls : Nat) :
    (s.joined queue j cls).filter (fun k => k != j) = queue := by
  have kept : queue.filter (fun k => k != j) = queue :=
    List.filter_eq_self.mpr fun k mem => by
      simpa using fun same : k = j => absent (same ▸ mem)
  rw [State.joined, List.filter_append, List.filter_cons_of_neg (by simp), ← List.filter_append,
    List.takeWhile_append_dropWhile, kept]

theorem queueCheckout_written (calm : s.atOnce = []) (queues : QueuesOk s) (free : (s.waiter j).state = .free)
    (f : Feature) (a : Asking) (wait : Nat) :
    s.queueCheckout f a wait j =
      { s.withQueued f a wait j with
        atOnce := dueNow s.siteTime (some ⟨f.clamp (s.siteTime + wait), .waitDeadline, j⟩) } := by
  have placed := placeWaiter_eq s j (s.queuedAs f a wait j)
  have lodges : waiterDeadline (j, s.queuedAs f a wait j) = some ⟨f.clamp (s.siteTime + wait), .waitDeadline, j⟩ := rfl
  rw [lodges, calm, List.filter_nil, List.nil_append] at placed
  obtain ⟨u, made⟩ : ∃ u, u = s.placeWaiter j (s.queuedAs f a wait j) := ⟨_, rfl⟩
  have same : ∀ k ∈ (s.pool f.pool).queue, (u.waiter k).cls = (s.waiter k).cls := by
    intro k queued
    have other : k ≠ j := fun same => not_queued queues free f.pool (same ▸ queued)
    have kept : u.waiter k = s.waiter k := by
      rw [made, placed]
      exact tableGet_put_other _ _ _ other
    rw [kept]
  have joins : s.queueCheckout f a wait j = u.joinQueue f.pool j a.cls := congrArg (·.joinQueue f.pool j a.cls) made.symm
  have home : u.pool f.pool = s.pool f.pool := by
    rw [made, placed]
    rfl
  rw [joins, State.joinQueue, home]
  simp only [joined_congr same]
  rw [made, placed]
  rfl

theorem holdBack_refused {wait cause : Nat} (zero : wait = 0) :
    s.holdBack f a wait cause = (s, plain .deniedCapacity cause) := if_pos zero

theorem holdBack_full {wait cause : Nat} (waits : wait ≠ 0) (full : s.freeWaiter = none) :
    s.holdBack f a wait cause = (s, plain .queueFull cause) := by
  rw [State.holdBack, if_neg waits, full]

theorem holdBack_queues {wait cause : Nat} (waits : wait ≠ 0) (entry : s.freeWaiter = some j) :
    s.holdBack f a wait cause =
      ((s.queueCheckout f a wait j).settle,
        { code := .queued, detail := cause, body := [wordOf j, wordOf (s.waiter j).gen] }) := by
  rw [State.holdBack, if_neg waits, entry]

theorem settle_queued_ahead (calm : s.atOnce = []) (queues : QueuesOk s) (free : (s.waiter j).state = .free) {wait : Nat}
    (ahead : s.siteTime < f.clamp (s.siteTime + wait)) :
    (s.queueCheckout f a wait j).settle = s.withQueued f a wait j := by
  have quiet : (s.withQueued f a wait j).atOnce = [] := calm
  rw [queueCheckout_written calm queues free, dueNow_ahead ahead, eq_of_calm quiet, settle_none quiet]

/-- A wait deadline at or before site time is reached before the reply: the waiter is ENDED and no queue has changed. -/
theorem settle_queued (tables : TablesOk s) (calm : s.atOnce = []) (queues : QueuesOk s)
    (free : (s.waiter j).state = .free) (known : s.feature a.feature = some f) (licensed : Licensed f s.siteTime)
    (wait : Nat) (due : f.clamp (s.siteTime + wait) ≤ s.siteTime) :
    (s.queueCheckout f a wait j).settle =
      { s with
        reached := s.reached.filter (fun d => !d.ofWaiter j)
        waiters := tablePut Waiter.initial s.waiters j
          ((s.queuedAs f a wait j).endedAs .timeout (f.clamp (s.siteTime + wait))) } := by
  obtain ⟨u, made⟩ : ∃ u, u = s.withQueued f a wait j := ⟨_, rfl⟩
  obtain ⟨dl, deadline⟩ : ∃ dl, dl = f.clamp (s.siteTime + wait) := ⟨_, rfl⟩
  have uCalm : u.atOnce = [] := made ▸ calm
  have uTables : TablesOk u := made ▸ ⟨tables.1, tablePut_canonical tables.2 _ _, tables.3, tables.4, tables.5, tables.6,
    tables.7, tables.8, tablePut_canonical tables.9 _ _⟩
  have entry : u.waiter j = s.queuedAs f a wait j := made ▸ tableGet_put_same ..
  have home : u.featureOf a.feature = f := featureOf_known (made ▸ known)
  have reason : (u.featureOf (u.waiter j).feature).waitReason dl = .timeout := by
    rw [entry]
    exact (congrArg (·.waitReason dl) home).trans (if_neg (not_ending_of_licensed licensed (deadline ▸ due)))
  have waits : (u.waiter j).state = .waiting := entry ▸ rfl
  have handled : u.handle ⟨dl, .waitDeadline, j⟩ = u.endWaiter j .timeout dl := by
    rw [← reason]
    exact if_pos waits
  rw [queueCheckout_written calm queues free, ← made, ← deadline, dueNow_due (deadline ▸ due),
    settle_first uTables uCalm, handled, endWaiter_written, entry, uCalm, List.filter_nil, settle_none rfl]
  have place : (u.featureOf (s.queuedAs f a wait j).feature).pool = f.pool := congrArg Feature.pool home
  have joins : u.pool f.pool = { s.pool f.pool with queue := s.joined (s.pool f.pool).queue j a.cls } := by
    rw [made]
    exact tableGet_put_same ..
  have pools : tablePut Pool.initial u.pools f.pool
      { u.pool f.pool with queue := (u.pool f.pool).queue.filter (fun m => m != j) } = s.pools := by
    rw [joins]
    simp only [joined_filter (not_queued queues free f.pool)]
    rw [made, State.withQueued, tablePut_put tables.pools_canonical]
    exact tablePut_same tables.pools_canonical f.pool
  have waiters (w : Waiter) : tablePut Waiter.initial u.waiters j w = tablePut Waiter.initial s.waiters j w := by
    rw [made, State.withQueued, tablePut_put tables.waiters_canonical]
  have reached : u.reached.filter (fun d => !d.ofWaiter j) = s.reached.filter (fun d => !d.ofWaiter j) := by
    rw [made, State.withQueued, filter_twice]
  rw [place, pools, waiters, reached, made]
  simp only [State.withQueued, calm]

end Sys2Proof.Machine

namespace Sys2Proof.Claims

open Sys2Proof.Machine

/-- Settles O19: by what fails, an entry, the charging condition, or a place among the waiters. -/
theorem checkoutIsHeldBack : Obligations.CheckoutIsHeldBack := by
  intro s rest tag feature user host project seats wait cls f taking calm queues a path cost deadline refused admitted
  refine ⟨fun i merges full => ?_, fun fresh passes nowhere => ?_, fun cause room costs fails => ?_⟩
  · have noRoom : s.referencesFull path = true := by
      rw [merges]
      simpa [State.referencesFull, Config.fullReferences] using full
    exact exec_checkout_refused (code := .tableFull) (detail := 1) taking admitted (decideCheckout_full noRoom _)
  · have decided := decideCheckout_charged (f := f) (a := a) (path := .fresh) (cost := cost) fresh (fresh ▸ rfl) nofun
      (.inr passes) (min wait.toNat 3600)
    rw [State.pathEntry, nowhere] at decided
    exact exec_checkout_refused (code := .tableFull) (detail := 0) taking admitted decided
  · have open' : ¬s.referencesFull path = true := by
      cases found : path with
      | merge i => simpa [State.referencesFull, Config.fullReferences] using room i found
      | fresh => nofun
      | reattach i => nofun
    have held := decideCheckout_heldBack (f := f) (a := a) (path := path) (cost := cost) rfl rfl open' costs fails
      (min wait.toNat 3600)
    have long (waits : wait.toNat ≠ 0) : min wait.toNat 3600 ≠ 0 := by omega
    refine ⟨fun zero => ?_, fun waits full => ?_, fun j waits inside free lowest => ?_⟩
    · exact exec_checkout_refused (code := .deniedCapacity) taking admitted
        (held.trans (holdBack_refused (by rw [zero]; rfl)))
    · exact exec_checkout_refused (code := .queueFull) taking admitted
        (held.trans (holdBack_full (long waits) (freeWaiter_none full)))
    · have replied := exec_checkout_decided taking admitted
        (held.trans (holdBack_queues (long waits) (freeWaiter_lowest inside free lowest)))
      have header : (0x01#8 ++ BitVec.ofNat 8 (3 + 2) : Word) = 0x0105#16 := by decide
      rw [← header]
      intro queued entered
      refine ⟨fun ahead => ?_, fun due tables => ?_⟩
      · exact replied.trans (next_answered (settle_queued_ahead calm queues free ahead) ..)
      · exact replied.trans
          (next_answered (settle_queued tables calm queues free admitted.known admitted.licensed _ due) ..)

end Sys2Proof.Claims
end

section
/-! SUPPORT. The edits of pools, projects and allotments, and the scans that they ask for: the proofs of O40 and O41. -/

namespace Sys2Proof.Machine

open Sys2Proof.Claims

variable {s t u v : State} {p : Nat}

/-! ### The scan after an edit (R49, R113) -/

/-- An edit asks for a scan, by itself or by taking the pool out of over. -/
def AsksScan (s t : State) (p : Nat) (asked : Bool) : Prop :=
  asked = true ∨ ((s.pool p).isOver = true ∧ (t.pool p).isOver = false)

theorem afterEdit_scans {recompute asked : Bool} (edits : s.recomputedIf p recompute = t) :
    s.afterEdit p recompute asked = if asked || ((s.pool p).isOver && !(t.pool p).isOver) then
      (t.scan p t.siteTime).settle else t := by
  rw [afterEdit_eq, edits]

theorem asksScan_iff {asked : Bool} :
    (asked || ((s.pool p).isOver && !(t.pool p).isOver)) = true ↔ AsksScan s t p asked := by
  simp [AsksScan]

/-- No scan is asked for, or it would serve nobody. -/
theorem afterEdit_stays {recompute asked : Bool} (edits : s.recomputedIf p recompute = t) (calm : t.atOnce = [])
    (idle : NoOneServed t p ∨ ¬AsksScan s t p asked) : s.afterEdit p recompute asked = t := by
  rw [afterEdit_scans edits]
  split
  · rename_i asks
    rw [noOneServed_scan (idle.resolve_right (not_not_intro (asksScan_iff.mp asks))), settle_none calm]
  · rfl

theorem afterEdit_asks {recompute asked : Bool} (edits : s.recomputedIf p recompute = t) (tables : TablesOk t)
    (calm : t.atOnce = []) (asks : AsksScan s t p asked) (scanned : Scanned t p t.siteTime u) :
    s.afterEdit p recompute asked = u := by
  rw [afterEdit_scans edits, if_pos (asksScan_iff.mpr asks)]
  exact (scanned_scan scanned tables calm).1

theorem edited_tables (tables : TablesOk s) (q : Pool) :
    TablesOk { s with pools := tablePut Pool.initial s.pools p q } :=
  ⟨tables.1, tablePut_canonical tables.2 p q, tables.3, tables.4, tables.5, tables.6, tables.7, tables.8, tables.9⟩

theorem noOneServed_edited {q : Pool} (queue : q.queue = (s.pool p).queue) (none : NoOneServed s p) :
    NoOneServed { s with pools := tablePut Pool.initial s.pools p q } p := by
  refine none.imp id fun ⟨empty, unmarked⟩ => ⟨?_, unmarked⟩
  have written : State.pool { s with pools := tablePut Pool.initial s.pools p q } p = q := tableGet_put_same ..
  rw [written, queue, empty]

/-! ### Define Pool (R6) -/

/-- A pool with both figures set. -/
def Pool.edited (q : Pool) (capacity cap : Nat) : Pool := { q with capacity := capacity, borrowCap := cap }

theorem serveDefinePool_outside {x : Frame} (outside : 64 ≤ field x 2) : serveDefinePool x s = (s, badField 2) :=
  if_pos outside

theorem serveDefinePool_inside {x : Frame} (inside : field x 2 < 64)
    (after : (s.setPool (field x 2) ((s.pool (field x 2)).edited (field x 3) (field x 4))).afterEdit (field x 2)
      (field x 3 != (s.pool (field x 2)).capacity) (decide ((s.pool (field x 2)).capacity < field x 3)) = t) :
    serveDefinePool x s = (t, okay (if (t.pool (field x 2)).isOver then 1 else 0)) := by
  rw [← after]
  exact if_neg (Nat.not_le.mpr inside)

theorem recomputed_edited (tables : TablesOk s) (capacity cap : Nat) :
    (s.setPool p ((s.pool p).edited capacity cap)).recomputedIf p (capacity != (s.pool p).capacity) =
      { s with
        pools := tablePut Pool.initial s.pools p
          (if capacity = (s.pool p).capacity then (s.pool p).edited capacity cap
          else withOver ((s.pool p).edited capacity cap) (s.reserveSum p) s.siteTime) } := by
  rw [State.recomputedIf]
  by_cases same : capacity = (s.pool p).capacity
  · rw [if_neg (by simpa using same), if_pos same]
    rfl
  · rw [if_pos (by simpa using same), if_neg same, State.recomputeOver, recomputed_eq_withOver, pool_setPool, if_pos rfl]
    exact congrArg (fun l : Table Pool => { s with pools := l }) (tablePut_put tables.pools_canonical ..)

/-! ### Projects (R7, R8) -/

theorem serveDefineProject_zero {x : Frame} (zero : field x 2 = 0) : serveDefineProject x s = (s, badField 2) :=
  if_pos zero

theorem serveDefineProject_known {x : Frame} (named : field x 2 ≠ 0) (known : field x 2 ∈ s.projects) :
    serveDefineProject x s = (s, okay 1) :=
  (if_neg named).trans (if_pos known)

theorem serveDefineProject_full {x : Frame} (named : field x 2 ≠ 0) (unknown : field x 2 ∉ s.projects)
    (full : 128 ≤ s.projects.length) : serveDefineProject x s = (s, plain .tableFull 0) :=
  (if_neg named).trans ((if_neg unknown).trans (if_pos full))

theorem serveDefineProject_enters {x : Frame} (named : field x 2 ≠ 0) (unknown : field x 2 ∉ s.projects)
    (room : s.projects.length < 128) :
    serveDefineProject x s = ({ s with projects := s.projects ++ [field x 2] }, okay 0) :=
  (if_neg named).trans ((if_neg unknown).trans (if_neg (Nat.not_le.mpr room)))

theorem serveRemoveProject_zero {x : Frame} (zero : field x 2 = 0) : serveRemoveProject x s = (s, badField 2) :=
  if_pos zero

theorem serveRemoveProject_unknown {x : Frame} (named : field x 2 ≠ 0) (unknown : field x 2 ∉ s.projects) :
    serveRemoveProject x s = (s, plain .unknownProject 0) :=
  (if_neg named).trans (if_pos unknown)

theorem serveRemoveProject_used {x : Frame} (named : field x 2 ≠ 0) (known : field x 2 ∈ s.projects) {n : Nat}
    (used : s.projectUse (field x 2) = some n) : serveRemoveProject x s = (s, plain .inUse n) := by
  rw [serveRemoveProject, if_neg named, if_neg (not_not_intro known), used]

theorem serveRemoveProject_removes {x : Frame} (named : field x 2 ≠ 0) (known : field x 2 ∈ s.projects)
    (unused : s.projectUse (field x 2) = none) :
    serveRemoveProject x s = ({ s with projects := s.projects.erase (field x 2) }, okay 0) := by
  rw [serveRemoveProject, if_neg named, if_neg (not_not_intro known), unused]

theorem projectHeld_iff (rising : TableRising s.holdings) (project : Nat) :
    s.holdings.any (fun e => e.2.state.counted && e.2.project == project) = true ↔
      ∃ i, (s.holding i).state.counted = true ∧ (s.holding i).project = project := by
  rw [any_table_iff (test := fun h : Holding => h.state.counted && h.project == project) rising Holding.initial rfl]
  simp [State.holding]

theorem projectWaited_iff (rising : TableRising s.waiters) (project : Nat) :
    s.waiters.any (fun e => e.2.state == .waiting && e.2.project == project) = true ↔
      ∃ j, (s.waiter j).state = .waiting ∧ (s.waiter j).project = project := by
  rw [any_table_iff (test := fun w : Waiter => w.state == .waiting && w.project == project) rising Waiter.initial rfl]
  simp [State.waiter]

theorem projectAllotted_iff (project : Nat) :
    s.allotments.any (fun a => a.project == project) = true ↔ ∃ a ∈ s.allotments, a.project = project := by
  simp

end Sys2Proof.Machine

namespace Sys2Proof.Claims

open Sys2Proof.Machine

/-- Settles O40: each request by its checks, the project's uses in their order. -/
theorem poolsAndProjectsAreEdited : Obligations.PoolsAndProjectsAreEdited := by
  refine ⟨?_, ?_, ?_⟩
  · intro s rest tag pool capacity cap taking admen calm tables p edited after
    refine ⟨fun outside => serveKind_refused taking (kind := 0x23#8) (by decide) rfl (.inr ⟨rfl, admen⟩)
      (owner := serveDefinePool) (code := .badField) (detail := 2) (serveDefinePool_outside outside), fun inside => ?_⟩
    intro edit asksScan done
    have serves {t : State} (ends : (s.setPool p edited).afterEdit p (capacity.toNat != (s.pool p).capacity)
        (decide ((s.pool p).capacity < capacity.toNat)) = t) : exec .definePool s = done t :=
      serveKind_answered taking (kind := 0x23#8) (by decide) rfl (.inr ⟨rfl, admen⟩) (owner := serveDefinePool)
        (a := okay (if (t.pool p).isOver then 1 else 0)) (serveDefinePool_inside (s := s.leaving rest) (x := [0x2305#16, tag, pool, capacity, cap]) inside
          ((relink_afterEdit (s := s.setPool p edited) { fifo := fun _ => rest } ..).trans (congrArg (·.leaving rest) ends)))
    have edits := recomputed_edited (p := p) tables capacity.toNat cap.toNat
    have entry : edit.pool p = after := tableGet_put_same ..
    have before : (s.setPool p edited).pool p = edited := tableGet_put_same ..
    have asks : asksScan ↔ AsksScan (s.setPool p edited) edit p (decide ((s.pool p).capacity < capacity.toNat)) := by
      rw [AsksScan, entry, before, decide_eq_true_iff]
    refine ⟨fun idle => serves (afterEdit_stays edits calm ?_), fun wanted t scanned => ?_⟩
    · refine idle.imp (noOneServed_edited ?_) (mt asks.mpr)
      simp only [after]
      split <;> rfl
    · exact serves (afterEdit_asks edits (edited_tables tables _) calm (asks.mp wanted) scanned)
  · intro s rest tag code taking admen c
    have byOwner {t : State} (a : Answer) (serves : serveDefineProject [0x2403#16, tag, code] (s.leaving rest) = (t, a)) :=
      serveKind_reply taking (kind := 0x24#8) (by decide) rfl (.inr ⟨rfl, admen⟩) serves
    exact ⟨fun zero => byOwner (badField 2) (serveDefineProject_zero zero),
      fun named known => byOwner (okay 1) (serveDefineProject_known (s := s.leaving rest) named known),
      fun named unknown full => byOwner (plain .tableFull 0) (serveDefineProject_full (s := s.leaving rest) named unknown full),
      fun named unknown room => byOwner (okay 0) (serveDefineProject_enters (s := s.leaving rest) named unknown room)⟩
  · intro s rest tag code taking admen tables c held waited allotted
    have byOwner {t : State} (a : Answer) (serves : serveRemoveProject [0x2503#16, tag, code] (s.leaving rest) = (t, a)) :=
      serveKind_reply taking (kind := 0x25#8) (by decide) rfl (.inr ⟨rfl, admen⟩) serves
    have inUse {n : Nat} (named : c ≠ 0) (known : c ∈ s.projects) (use : s.projectUse c = some n) :=
      byOwner (plain .inUse n)
        (serveRemoveProject_used (s := s.leaving rest) (x := [0x2503#16, tag, code]) named known use)
    have holds := projectHeld_iff tables.holdings_canonical.1 c
    have waits := projectWaited_iff tables.waiters_canonical.1 c
    have allots := projectAllotted_iff (s := s) c
    refine ⟨fun zero => byOwner (badField 2) (serveRemoveProject_zero zero),
      fun named unknown => byOwner (plain .unknownProject 0) (serveRemoveProject_unknown (s := s.leaving rest) named unknown),
      fun named known => ⟨fun h => inUse named known ?_,
        fun h w => inUse named known ?_,
        fun h w a => inUse named known ?_,
        fun h w a => byOwner (okay 0) (serveRemoveProject_removes (s := s.leaving rest) named known ?_)⟩⟩
    · exact if_pos (holds.mpr h)
    · exact (if_neg (mt holds.mp h)).trans (if_pos (waits.mpr w))
    · exact (if_neg (mt holds.mp h)).trans ((if_neg (mt waits.mp w)).trans (if_pos (allots.mpr a)))
    · exact (if_neg (mt holds.mp h)).trans ((if_neg (mt waits.mp w)).trans (if_neg (mt allots.mp a)))

end Sys2Proof.Claims
end

section
/-! SUPPORT. The edits of allotments, and the scans that they ask for: the proof of O41. -/

namespace Sys2Proof.Machine

open Sys2Proof.Claims

variable {s t : State} {p project : Nat} {x : Frame} {a : Allotment}

theorem recomputedIf_written (s : State) (p : Nat) (recompute : Bool) :
    s.recomputedIf p recompute =
      { s with
        pools := if recompute then
            tablePut Pool.initial s.pools p (withOver (s.pool p) (s.reserveSum p) s.siteTime)
          else s.pools } := by
  cases recompute with
  | false => rfl
  | true => rw [State.recomputedIf, if_pos rfl, State.recomputeOver, recomputed_eq_withOver]; rfl

theorem changeAllotment_written (s : State) (project p : Nat) (g : Allotment → Allotment) :
    s.changeAllotment project p g =
      { s with allotments := s.allotments.map (fun x => if x.project = project ∧ x.pool = p then g x else x) } := by
  simp [State.changeAllotment, Allotment.keyed]

/-! ### Define Allotment (R10, R11) -/

theorem projectTokens_sum (s : State) (project p : Nat) :
    s.projectTokens project p =
      ((s.holdings.filter (fun e =>
        decide (e.2.state.counted = true ∧ e.2.project = project ∧ e.2.pool = p))).map (fun e => e.2.tokens)).sum := by
  refine congrArg (fun l : Table Holding => (l.map (fun e => e.2.tokens)).sum) (List.filter_congr fun e _ => ?_)
  rw [Bool.eq_iff_iff]
  simp [and_assoc]

theorem reserveSum_enters (s : State) {a : Allotment} (inPool : a.pool = p) :
    State.reserveSum { s with allotments := s.allotments ++ [a] } p = s.reserveSum p + a.reserve := by
  simp [State.reserveSum, List.filter_append, inPool]

theorem entered_written (s : State) {a : Allotment} (inPool : a.pool = p) (evt : Nat) :
    State.recomputeOver { s with allotments := s.allotments ++ [a] } p evt =
      { s with
        allotments := s.allotments ++ [a]
        pools := tablePut Pool.initial s.pools p (withOver (s.pool p) (s.reserveSum p + a.reserve) evt) } := by
  rw [State.recomputeOver, recomputed_eq_withOver, reserveSum_enters s inPool]
  rfl

theorem allotmentChecks (project p flag : Nat) :
    firstBadWord [(2, project == 0), (3, decide (64 ≤ p)), (5, decide (1 < flag))] =
      if project = 0 then some 2 else if 64 ≤ p then some 3 else if 1 < flag then some 5 else none := by
  simp only [firstBadWord_triple, beq_iff_eq, decide_eq_true_eq]

theorem serveDefineAllotment_bad {n : Nat}
    (bad : firstBadWord [(2, field x 2 == 0), (3, decide (64 ≤ field x 3)), (5, decide (1 < field x 5))] = some n) :
    serveDefineAllotment x s = (s, badField n) := by
  unfold serveDefineAllotment
  have checks : firstBadWord
      [(2, field x 2 == 0), (3, decide (Config.pools ≤ field x 3)), (5, decide (1 < field x 5))] = some n := bad
  rw [checks]

section Passing

variable (named : field x 2 ≠ 0) (inside : field x 3 < 64) (flagged : field x 5 ≤ 1)

include named inside flagged

theorem defineChecks : firstBadWord
    [(2, field x 2 == 0), (3, decide (Config.pools ≤ field x 3)), (5, decide (1 < field x 5))] = none :=
  (allotmentChecks ..).trans (by rw [if_neg named, if_neg (Nat.not_le.mpr inside), if_neg (Nat.not_lt.mpr flagged)])

theorem serveDefineAllotment_replaces (known : s.allotment (field x 2) (field x 3) = some a) :
    serveDefineAllotment x s = (s.replaceAllotment a (field x 4) (carriedCap x), okay 1) := by
  rw [serveDefineAllotment, defineChecks named inside flagged, known]

theorem serveDefineAllotment_unknown (new : s.allotment (field x 2) (field x 3) = none)
    (unknown : field x 2 ∉ s.projects) : serveDefineAllotment x s = (s, plain .unknownProject 0) := by
  rw [serveDefineAllotment, defineChecks named inside flagged, new]
  exact if_pos unknown

theorem serveDefineAllotment_full (new : s.allotment (field x 2) (field x 3) = none)
    (known : field x 2 ∈ s.projects) (full : 256 ≤ s.allotments.length) :
    serveDefineAllotment x s = (s, plain .tableFull 0) := by
  rw [serveDefineAllotment, defineChecks named inside flagged, new]
  exact (if_neg (not_not_intro known)).trans (if_pos full)

theorem serveDefineAllotment_enters (new : s.allotment (field x 2) (field x 3) = none)
    (known : field x 2 ∈ s.projects) (room : s.allotments.length < 256) :
    serveDefineAllotment x s =
      ({ s with
        allotments := s.allotments ++
          [{ project := field x 2, pool := field x 3, reserve := field x 4, cap := carriedCap x,
             used := s.projectTokens (field x 2) (field x 3) }]
        pools := tablePut Pool.initial s.pools (field x 3)
          (withOver (s.pool (field x 3)) (s.reserveSum (field x 3) + field x 4) s.siteTime) }, okay 0) := by
  rw [serveDefineAllotment, defineChecks named inside flagged, new]
  refine (if_neg (not_not_intro known)).trans ((if_neg (Nat.not_le.mpr room)).trans (Prod.ext ?_ rfl))
  exact entered_written s (p := field x 3) rfl s.siteTime

end Passing

theorem relink_replaceAllotment (l : Relinking) (a : Allotment) (reserve : Nat) (cap : Option Nat) :
    (s.relink l).replaceAllotment a reserve cap = (s.replaceAllotment a reserve cap).relink l :=
  relink_afterEdit (s := s.changeAllotment a.project a.pool fun x => { x with reserve := reserve, cap := cap }) l ..

theorem replaceAllotment_keyed (inProject : a.project = project) (inPool : a.pool = p) (reserve : Nat)
    (cap : Option Nat) :
    s.replaceAllotment a reserve cap =
      (s.changeAllotment project p fun x => { x with reserve := reserve, cap := cap }).afterEdit p
        (reserve != a.reserve) (decide (reserve < a.reserve) || capEased a.cap cap) := by
  rw [State.replaceAllotment, inProject, inPool]

/-- An edit of allotments is followed by no scan, whatever it asks for, where none would serve anyone. -/
theorem noOneServed_recomputed {l : List Allotment} {sum : Nat} {recompute : Bool} (none : NoOneServed s p) :
    NoOneServed { s with
      allotments := l
      pools := if recompute then tablePut Pool.initial s.pools p (withOver (s.pool p) sum s.siteTime) else s.pools } p := by
  refine none.imp id fun ⟨empty, unmarked⟩ => ⟨?_, unmarked⟩
  cases recompute with
  | false => exact empty
  | true => exact (congrArg Pool.queue (tableGet_put_same ..)).trans empty

theorem capEased_iff (before after : Option Nat) :
    capEased before after = true ↔ ∃ old, before = some old ∧ ∀ new, after = some new → old < new := by
  cases before <;> cases after <;> simp [capEased]

/-! ### Remove Allotment (R12) -/

/-- A state without the allotment of a key. -/
def State.unallotted (s : State) (project p : Nat) : State :=
  { s with allotments := s.allotments.filter fun x => !x.keyed project p }

theorem unallotted_written (s : State) (project p : Nat) :
    s.unallotted project p =
      { s with allotments := s.allotments.filter fun x => decide ¬(x.project = project ∧ x.pool = p) } := by
  refine congrArg (fun l : List Allotment => { s with allotments := l }) (List.filter_congr fun x _ => ?_)
  rw [Bool.eq_iff_iff]
  simp [Allotment.keyed]

theorem serveRemoveAllotment_bad {n : Nat}
    (bad : firstBadWord [(2, field x 2 == 0), (3, decide (64 ≤ field x 3))] = some n) :
    serveRemoveAllotment x s = (s, badField n) := by
  unfold serveRemoveAllotment
  have checks : firstBadWord [(2, field x 2 == 0), (3, decide (Config.pools ≤ field x 3))] = some n := bad
  rw [checks]

section Removing

variable (named : field x 2 ≠ 0) (inside : field x 3 < 64)

include named inside

theorem removeChecks : firstBadWord [(2, field x 2 == 0), (3, decide (Config.pools ≤ field x 3))] = none := by
  have code : (field x 2 == 0) = false := beq_false_of_ne named
  have pool : decide (Config.pools ≤ field x 3) = false := decide_eq_false (Nat.not_le.mpr inside)
  rw [code, pool]
  rfl

theorem serveRemoveAllotment_none (new : s.allotment (field x 2) (field x 3) = none) :
    serveRemoveAllotment x s = (s, okay 0) := by
  rw [serveRemoveAllotment, removeChecks named inside, new]

theorem serveRemoveAllotment_used (known : s.allotment (field x 2) (field x 3) = some a) (used : 0 < a.used) :
    serveRemoveAllotment x s = (s, plain .inUse 6) := by
  rw [serveRemoveAllotment, removeChecks named inside, known]
  exact if_pos used

theorem serveRemoveAllotment_removes (known : s.allotment (field x 2) (field x 3) = some a) (unused : a.used = 0) :
    serveRemoveAllotment x s =
      ((s.unallotted (field x 2) (field x 3)).afterEdit (field x 3) true true, okay 1) := by
  rw [serveRemoveAllotment, removeChecks named inside, known]
  exact if_neg (by rw [unused]; exact Nat.lt_irrefl 0)

end Removing

theorem unallotted_tables (tables : TablesOk s) (project p : Nat) : TablesOk (s.unallotted project p) :=
  ⟨tables.1, tables.2, tables.3, tables.4.sublist (List.filter_sublist.map _), tables.5, tables.6, tables.7, tables.8,
    tables.9⟩

end Sys2Proof.Machine

namespace Sys2Proof.Claims

open Sys2Proof.Machine

/-- Settles O41: each request by its checks; the scan that an edit asks for. -/
theorem allotmentsAreEdited : Obligations.AllotmentsAreEdited := by
  refine ⟨?_, ?_⟩
  · intro s rest tag project pool reserve flag cap taking admen calm tables pr p carried replaced charged overTable
    have byOwner {t : State} (a : Answer)
        (serves : serveDefineAllotment [0x2607#16, tag, project, pool, reserve, flag, cap] (s.leaving rest) = (t, a)) :=
      serveKind_reply taking (kind := 0x26#8) (by decide) rfl (.inr ⟨rfl, admen⟩) serves
    have refused {n : Nat}
        (bad : firstBadWord [(2, pr == 0), (3, decide (64 ≤ p)), (5, decide (1 < flag.toNat))] = some n) :=
      byOwner (badField n) (serveDefineAllotment_bad bad)
    have checks := allotmentChecks pr p flag.toNat
    refine ⟨fun zero => refused ?_, fun named outside => refused ?_, fun named inside high => refused ?_,
      fun named inside flagged => ⟨fun a known => ?_,
        fun new unknown => byOwner (plain .unknownProject 0)
          (serveDefineAllotment_unknown (s := s.leaving rest) named inside flagged new unknown),
        fun new listed full => byOwner (plain .tableFull 0)
          (serveDefineAllotment_full (s := s.leaving rest) named inside flagged new listed full),
        fun new listed room => (byOwner (okay 0)
          (serveDefineAllotment_enters (s := s.leaving rest) named inside flagged new listed room)).trans ?_⟩⟩
    · rw [checks, if_pos zero]
    · rw [checks, if_neg named, if_pos outside]
    · rw [checks, if_neg named, if_neg (Nat.not_le.mpr inside), if_pos high]
    · intro edit capEases asksScan done
      obtain ⟨-, inProject, inPool⟩ := allotment_some known
      have serves {t : State} (ends : s.replaceAllotment a reserve.toNat carried = t) : exec .defineAllotment s = done t :=
        serveKind_answered taking (kind := 0x26#8) (by decide) rfl (.inr ⟨rfl, admen⟩) (owner := serveDefineAllotment)
          (a := okay 1) ((serveDefineAllotment_replaces (s := s.leaving rest)
            (x := [0x2607#16, tag, project, pool, reserve, flag, cap]) named inside flagged known).trans
            (Prod.ext ((relink_replaceAllotment { fifo := fun _ => rest } ..).trans (congrArg (·.leaving rest) ends)) rfl))
      have replaces := replaceAllotment_keyed (s := s) inProject inPool reserve.toNat carried
      have pools : edit.pools = if reserve.toNat != a.reserve then
          overTable (State.reserveSum { s with allotments := replaced } p) else s.pools := by
        by_cases same : reserve.toNat = a.reserve
        · simp only [edit, same, bne_self_eq_false, Bool.false_eq_true, if_false, if_true]
        · simp only [edit, if_neg same, bne_iff_ne.mpr same, if_true]
      have written : edit = { s with allotments := replaced, pools := edit.pools } := rfl
      have edits : (s.changeAllotment pr p fun x => { x with reserve := reserve.toNat, cap := carried }).recomputedIf p
          (reserve.toNat != a.reserve) = edit := by
        rw [recomputedIf_written, changeAllotment_written, written, pools]
        rfl
      have editTables : TablesOk edit :=
        edits ▸ (tables.changeAllotment pr p (g := fun x => { x with reserve := reserve.toNat, cap := carried })
          fun _ => ⟨rfl, rfl⟩).recomputedIf p (reserve.toNat != a.reserve)
      have asks : asksScan ↔ AsksScan (s.changeAllotment pr p fun x => { x with reserve := reserve.toNat, cap := carried })
          edit p (decide (reserve.toNat < a.reserve) || capEased a.cap carried) := by
        rw [AsksScan, Bool.or_eq_true, decide_eq_true_iff, capEased_iff, or_assoc]
        rfl
      refine ⟨fun idle => serves (replaces.trans (afterEdit_stays edits calm (idle.imp (fun none => ?_) (mt asks.mpr)))),
        fun wanted t scanned =>
          serves (replaces.trans (afterEdit_asks edits editTables calm (asks.mp wanted) scanned))⟩
      rw [written, pools]
      exact noOneServed_recomputed none
    · have tokens : (s.leaving rest).projectTokens pr p = charged := projectTokens_sum s pr p
      rw [← tokens]
      rfl
  · intro s rest tag project pool taking admen calm tables pr p kept
    have byOwner {t : State} (a : Answer)
        (serves : serveRemoveAllotment [0x2704#16, tag, project, pool] (s.leaving rest) = (t, a)) :=
      serveKind_reply taking (kind := 0x27#8) (by decide) rfl (.inr ⟨rfl, admen⟩) serves
    have refused {n : Nat} (bad : firstBadWord [(2, pr == 0), (3, decide (64 ≤ p))] = some n) :=
      byOwner (badField n) (serveRemoveAllotment_bad bad)
    refine ⟨fun zero => refused ?_, fun named outside => refused ?_,
      fun named inside new => byOwner (okay 0) (serveRemoveAllotment_none (s := s.leaving rest) named inside new),
      fun a named inside known => ⟨fun used => byOwner (plain .inUse 6)
        (serveRemoveAllotment_used (s := s.leaving rest) named inside known used), fun unused => ?_⟩⟩
    · rw [beq_iff_eq.mpr zero]
      rfl
    · rw [beq_false_of_ne named, decide_eq_true outside]
      rfl
    · intro edit done
      have serves {t : State} (ends : (s.unallotted pr p).afterEdit p true true = t) : exec .removeAllotment s = done t :=
        serveKind_answered taking (kind := 0x27#8) (by decide) rfl (.inr ⟨rfl, admen⟩) (owner := serveRemoveAllotment)
          (a := okay 1) ((serveRemoveAllotment_removes (s := s.leaving rest)
            (x := [0x2704#16, tag, project, pool]) named inside known unused).trans
            (Prod.ext ((relink_afterEdit (s := s.unallotted pr p) (pool := p) { fifo := fun _ => rest } true true).trans
              (congrArg (·.leaving rest) ends)) rfl))
      have edits : (s.unallotted pr p).recomputedIf p true = edit := by
        rw [unallotted_written, recomputedIf_written]
        rfl
      have editTables : TablesOk edit := edits ▸ (unallotted_tables tables pr p).recomputedIf p true
      exact ⟨fun none => serves (afterEdit_stays edits calm (.inl (noOneServed_recomputed (recompute := true) none))),
        fun t scanned => serves (afterEdit_asks edits editTables calm (.inl rfl) scanned)⟩

end Sys2Proof.Claims
end

section
/-! SUPPORT. Define Feature whose fields pass, and its record replaced with an unchanged end day: the proof of O43. -/

namespace Sys2Proof.Machine

open Sys2Proof.Claims

variable {s t : State} {code : Nat} {f old new : Feature} {x : Frame}

/-! ### A record placed under a code (R136) -/

theorem tableInsert_twice {α : Type} {l : Table α} (rising : TableRising l) (k : Nat) (v w : α) :
    tableInsert (tableInsert l k v) k w = tableInsert l k w := by
  refine rising_ext (tableInsert_rising (tableInsert_rising rising k v) k w) (tableInsert_rising rising k w) fun i => ?_
  rw [tableFind_insert, tableFind_insert, tableFind_insert]
  split <;> rfl

/-- A state with a feature record written and its deadlines withdrawn. -/
def State.withFeature (s : State) (code : Nat) (f : Feature) : State :=
  { s with
    features := tableInsert s.features code f
    reached := s.reached.filter (fun d => !d.ofFeature code) }

theorem withFeature_tables (tables : TablesOk s) (code : Nat) (f : Feature) : TablesOk (s.withFeature code f) :=
  ⟨tableInsert_rising tables.1 code f, tables.2, tables.3, tables.4, tables.5, tables.6, tables.7, tables.8, tables.9⟩

theorem placeFeature_written (calm : s.atOnce = []) (code : Nat) (f : Feature) :
    s.placeFeature code f =
      { s.withFeature code f.lodged with atOnce := dueNow s.siteTime (featureDeadline (code, f.lodged)) } := by
  rw [placeFeature_eq, calm, List.filter_nil, List.nil_append]
  rfl

theorem lodged_perpetual (perpetual : f.endInstant = none) (unlodged : f.endLodged = false) : f.lodged = f := by
  rw [Feature.lodged, perpetual, Option.isSome_none, ← unlodged]

theorem featureDeadline_lodged {e : Nat} (ending : f.endInstant = some e) :
    featureDeadline (code, f.lodged) = some ⟨e, .featureEnd, code⟩ := by
  have lodged : f.lodged.endLodged = true := congrArg Option.isSome ending
  have same : f.lodged.endInstant = some e := ending
  rw [featureDeadline, if_pos lodged, same]
  rfl

theorem settle_placed_perpetual (calm : s.atOnce = []) (perpetual : f.endInstant = none) (unlodged : f.endLodged = false)
    (code : Nat) : (s.placeFeature code f).settle = s.withFeature code f := by
  have quiet : (s.withFeature code f).atOnce = [] := calm
  have none : featureDeadline (code, f) = none := if_neg (by rw [unlodged]; nofun)
  rw [placeFeature_written calm, lodged_perpetual perpetual unlodged, none, dueNow_none, eq_of_calm quiet,
    settle_none quiet]

theorem settle_placed_ahead (calm : s.atOnce = []) {e : Nat} (ending : f.endInstant = some e) (ahead : s.siteTime < e)
    (code : Nat) : (s.placeFeature code f).settle = s.withFeature code f.lodged := by
  have quiet : (s.withFeature code f.lodged).atOnce = [] := calm
  rw [placeFeature_written calm, featureDeadline_lodged ending, dueNow_ahead ahead, eq_of_calm quiet, settle_none quiet]

theorem endFeatureWaiters_unwaited (rising : TableRising s.waiters) (unwaited : ¬Waited s code) (reason : WaiterEnd)
    (evt : Nat) : s.endFeatureWaiters code reason evt = s := by
  have none : ∀ e ∈ s.waiters, ¬(e.2.state = .waiting ∧ e.2.feature = code) := by
    rintro ⟨j, w⟩ listed waits
    have found : s.waiter j = w := tableGet_of_mem rising listed
    exact unwaited ⟨j, found ▸ waits⟩
  have walk (l : Table Waiter) (part : ∀ e ∈ l, ¬(e.2.state = .waiting ∧ e.2.feature = code)) :
      s.endListed l code reason evt = s := by
    induction l with
    | nil => rfl
    | cons e l ih =>
      have passes : ¬e.2.waitsFor code = true := by
        rw [Waiter.waitsFor, decide_eq_true_iff]
        exact part e List.mem_cons_self
      rw [endListed_cons, if_neg passes]
      exact ih fun y mem => part y (List.mem_cons_of_mem e mem)
  exact walk s.waiters none

/-- An end instant at or before site time is taken at once; where nobody waits for the feature it ends nothing else. -/
theorem settle_placed_due (tables : TablesOk s) (calm : s.atOnce = []) {e : Nat} (ending : f.endInstant = some e)
    (unlodged : f.endLodged = false) (due : e ≤ s.siteTime) (unwaited : ¬Waited s code) :
    (s.placeFeature code f).settle = s.withFeature code f := by
  obtain ⟨u, made⟩ : ∃ u, u = s.withFeature code f.lodged := ⟨_, rfl⟩
  have uTables : TablesOk u := made ▸ withFeature_tables tables code f.lodged
  have uCalm : u.atOnce = [] := made ▸ calm
  have known : u.feature code = some f.lodged := by
    rw [made]
    exact (tableFind_insert ..).trans (if_pos rfl)
  have taken : { f.lodged with endLodged := false } = f := by
    rw [← unlodged]
    rfl
  have ends : u.setFeature code f = s.withFeature code f := by
    rw [made]
    exact congrArg (fun l : Table Feature => { s.withFeature code f with features := l })
      (tableInsert_twice tables.features_rising code f.lodged f)
  have handled : u.handle ⟨e, .featureEnd, code⟩ = s.withFeature code f := by
    rw [State.handle]
    simp only [State.handleFeatureEnd, known, taken, ends]
    exact endFeatureWaiters_unwaited (s := s.withFeature code f) tables.waiters_canonical.1 unwaited .expired e
  have quiet : (s.withFeature code f).atOnce = [] := calm
  rw [placeFeature_written calm, featureDeadline_lodged ending, dueNow_due due, ← made, settle_first uTables uCalm,
    handled, settle_none quiet]

/-! ### Define Feature (R14 to R16) -/

section Served

variable (passes : featureBadWord x = none)

include passes

theorem serveDefineFeature_full (free : s.feature (field x 2) = none) (full : 512 ≤ s.features.length) :
    serveDefineFeature x s = (s, plain .tableFull 0) := by
  rw [serveDefineFeature, passes]
  simp only [free]
  exact if_pos full

theorem serveDefineFeature_badChain (free : s.feature (field x 2) = none) (room : s.features.length < 512)
    {offset : Nat} (bad : s.featureChainFault (carriedFeature x) = some offset) :
    serveDefineFeature x s = (s, plain .chainForm offset) := by
  rw [serveDefineFeature, passes]
  simp only [free, bad]
  exact if_neg (Nat.not_le.mpr room)

theorem serveDefineFeature_creates (free : s.feature (field x 2) = none) (room : s.features.length < 512)
    (chain : s.featureChainFault (carriedFeature x) = none) :
    serveDefineFeature x s = ((s.placeFeature (field x 2) (carriedFeature x)).settle, okay 0) := by
  rw [serveDefineFeature, passes]
  simp only [free, chain]
  exact if_neg (Nat.not_le.mpr room)

theorem serveDefineFeature_retiring (known : s.feature (field x 2) = some old) (retiring : old.state = .retiring) :
    serveDefineFeature x s = (s, plain .inUse 4) := by
  rw [serveDefineFeature, passes]
  simp only [known]
  exact if_pos retiring

section Active

variable (known : s.feature (field x 2) = some old) (active : old.state = .active)

include known active

theorem serveDefineFeature_inUse {n : Nat} (used : s.featureUse (field x 2) old (carriedFeature x) = some n) :
    serveDefineFeature x s = (s, plain .inUse n) := by
  rw [serveDefineFeature, passes]
  simp only [known, used]
  exact if_neg (by rw [active]; nofun)

theorem serveDefineFeature_misformed (unused : s.featureUse (field x 2) old (carriedFeature x) = none) {offset : Nat}
    (bad : s.featureChainFault (carriedFeature x) = some offset) :
    serveDefineFeature x s = (s, plain .chainForm offset) := by
  rw [serveDefineFeature, passes]
  simp only [known, unused, bad]
  exact if_neg (by rw [active]; nofun)

theorem serveDefineFeature_replaces (unused : s.featureUse (field x 2) old (carriedFeature x) = none)
    (chain : s.featureChainFault (carriedFeature x) = none) :
    serveDefineFeature x s = (s.replaceFeature (field x 2) old (carriedFeature x), okay 1) := by
  rw [serveDefineFeature, passes]
  simp only [known, unused, chain]
  exact if_neg (by rw [active]; nofun)

end Active

end Served

/-! ### The words of the frame -/

theorem featureBadWord_passes {x : FeatureWords} (passes : ∀ n, ¬x.fails n) (tag : Word) :
    featureBadWord (x.frame tag) = none :=
  firstBadWord_none fun n bad => passes n ((mem_featureChecks x.code.toNat x.pool.toNat x.weight.toNat x.sharing.toNat
    x.startDay.toNat x.endDay.toNat (value32 x.leaseHi x.leaseLo) x.linger.toNat x.borrowMax.toNat x.chainFlag.toNat
    x.chain.toNat n).mp bad)

theorem sharing_ofCode {n : Nat} (known : n ≤ 2) :
    (Sharing.ofCode n).getD .separate = if n = 0 then .separate else if n = 1 then .user else .station := by
  interval_cases n <;> rfl

theorem carriedFeature_record {x : FeatureWords} (passes : ∀ n, ¬x.fails n) (tag : Word) :
    carriedFeature (x.frame tag) = x.record false := by
  have known : x.sharing.toNat ≤ 2 := by
    by_contra high
    exact passes 5 (.inr (.inr (.inr (.inl ⟨rfl, Nat.not_le.mp high⟩))))
  have sharing := sharing_ofCode known
  rw [FeatureWords.record, ← sharing]
  rfl

theorem featureChainFault_record (s : State) (x : FeatureWords) (lodged : Bool) :
    s.featureChainFault (x.record lodged) = x.badOffset s := by
  have chain : (x.record lodged).chain = if x.chainFlag.toNat = 1 then some x.chain.toNat else none := rfl
  rw [State.featureChainFault, chain, FeatureWords.badOffset]
  by_cases flagged : x.chainFlag.toNat = 1
  · rw [if_pos flagged, if_pos flagged]
  · rw [if_neg flagged, if_neg flagged]

theorem record_endInstant {x : FeatureWords} (ends : x.endDay ≠ 65535#16) (lodged : Bool) :
    (x.record lodged).endInstant = some ((x.endDay.toNat + 1) * 86400) := by
  have day : x.endDay.toNat ≠ 65535 := fun same => ends (BitVec.eq_of_toNat_eq same)
  have last : (x.record lodged).endDay = some x.endDay.toNat := if_neg day
  rw [Feature.endInstant, last]
  rfl

theorem record_perpetual {x : FeatureWords} (perpetual : x.endDay = 65535#16) (lodged : Bool) :
    (x.record lodged).endInstant = none := by
  have last : (x.record lodged).endDay = none := if_pos (by rw [perpetual]; rfl)
  rw [Feature.endInstant, last]
  rfl

end Sys2Proof.Machine

namespace Sys2Proof.Claims

open Sys2Proof.Machine

/-- Settles O43: by the code's state, then what uses the record, the chain and the end day. -/
theorem defineFeatureCreatesOrReplaces : Obligations.DefineFeatureCreatesOrReplaces := by
  intro s rest tag x taking admen calm tables fields c made
  obtain ⟨u, start⟩ : ∃ u, u = s.leaving rest := ⟨_, rfl⟩
  have passes := featureBadWord_passes fields tag
  have carried := carriedFeature_record fields tag
  have chain : u.featureChainFault (carriedFeature (x.frame tag)) = x.badOffset s := by
    rw [carried, featureChainFault_record, start]
    rfl
  have uTables : TablesOk u := start ▸ leaving_tables tables rest
  have uCalm : u.atOnce = [] := start ▸ calm
  have byOwner {t : State} (a : Answer) (serves : serveDefineFeature (x.frame tag) u = (t, a)) :=
    serveKind_reply taking (kind := 0x28#8) (by decide) rfl (.inr ⟨rfl, admen⟩) (start ▸ serves)
  have refused (code : ReplyCode) (detail : Nat)
      (serves : serveDefineFeature (x.frame tag) u = (u, plain code detail)) :
      exec .defineFeature s = turned s rest 0x28#8 tag code.byte detail := by
    rw [start] at serves
    exact serveKind_refused taking (kind := 0x28#8) (by decide) rfl (.inr ⟨rfl, admen⟩) serves
  have created {v : State} (room : s.features.length < 512) (free : s.feature c = none) (good : x.badOffset s = none)
      (ends : (u.placeFeature c (x.record false)).settle = v) :
      exec .defineFeature s = .next (v.placeReply (reply 0x28#8 tag 0x00#8 0 [])) := by
    refine byOwner (okay 0) ((serveDefineFeature_creates passes (start ▸ free) (start ▸ room) (chain.trans good)).trans ?_)
    rw [carried]
    exact Prod.ext ends rfl
  refine ⟨fun free => ⟨fun full => ?_, fun room => ⟨fun offset bad => ?_, fun good perpetual => ?_,
    fun good ends ahead => ?_, fun good ends due unwaited => ?_⟩⟩, fun old known => ?_⟩
  · exact refused .tableFull 0 (serveDefineFeature_full passes (start ▸ free) (start ▸ full))
  · exact refused .chainForm offset
      (serveDefineFeature_badChain passes (start ▸ free) (start ▸ room) (chain.trans bad))
  · rw [created room free good (settle_placed_perpetual uCalm (record_perpetual perpetual false) rfl c), start]
    rfl
  · rw [created room free good
      (settle_placed_ahead uCalm (record_endInstant ends false) (by rw [start]; exact ahead) c), start]
    have lodged : (x.record false).lodged = x.record true := by
      rw [Feature.lodged, record_endInstant ends]
      rfl
    rw [lodged]
    rfl
  · rw [created room free good (settle_placed_due uTables uCalm (record_endInstant ends false) rfl
      (by rw [start]; exact due) (by rw [start]; exact unwaited)), start]
    rfl
  · intro moved
    have present : u.feature c = some old := start ▸ known
    have held : u.featureHeld c = true ↔ Held s c := by
      rw [featureHeld_iff uTables.holdings_canonical.1, start]
      rfl
    have waited : u.featureWaited c = true ↔ Waited s c := by
      rw [featureWaited_iff uTables.waiters_canonical.1, start]
      rfl
    have movedAlike : moved ↔ ¬((carriedFeature (x.frame tag)).pool = old.pool
        ∧ (carriedFeature (x.frame tag)).sharing = old.sharing) := by
      rw [carried, not_and_or]
      rfl
    refine ⟨fun retiring => refused .inUse 4 (serveDefineFeature_retiring passes present retiring),
      fun active moves holds => refused .inUse 1 (serveDefineFeature_inUse passes present active ?_),
      fun active moves unheld waits => refused .inUse 2 (serveDefineFeature_inUse passes present active ?_),
      fun active stays => ?_⟩
    · exact (if_neg (movedAlike.mp moves)).trans (if_pos (held.mpr holds))
    · exact (if_neg (movedAlike.mp moves)).trans ((if_neg (mt held.mp unheld)).trans (if_pos (waited.mpr waits)))
    have unused : u.featureUse c old (carriedFeature (x.frame tag)) = none := by
      by_cases moves : moved
      · obtain ⟨unheld, unwaited⟩ := stays moves
        exact (if_neg (movedAlike.mp moves)).trans
          ((if_neg (mt held.mp unheld)).trans (if_neg (mt waited.mp unwaited)))
      · exact if_pos (not_not.mp (mt movedAlike.mpr moves))
    refine ⟨fun offset bad =>
      refused .chainForm offset (serveDefineFeature_misformed passes present active unused (chain.trans bad)),
      fun good same => ?_⟩
    have replaced : u.replaceFeature c old (x.record false) = u.setFeature c (x.record old.endLodged) := if_pos same
    have answered := byOwner (okay 1) (serveDefineFeature_replaces passes present active unused (chain.trans good))
    rw [carried] at answered
    refine answered.trans ((congrArg (fun v : State => Host.Outcome.next (φ := Fault) (ρ := Refusal)
      (v.placeReply (reply 0x28#8 tag 0x00#8 1 []))) replaced).trans ?_)
    rw [start]
    rfl

end Sys2Proof.Claims
end

section
/-! SUPPORT. Open Service and Close Service: the pass that grants no one, and the pass that grants: the proofs of O38 and
O39. -/

namespace Sys2Proof.Machine

open Sys2Proof.Claims

variable {s t : State} {p j k evt : Nat} {f : Feature}

/-! ### Open Service and Close Service (R2, R3) -/

theorem serveOpenService_unset {x : Frame} (unset : s.timeState = .unset) :
    serveOpenService x s = (s, plain .timeUnset 0) := if_pos unset

theorem serveOpenService_again {x : Frame} (set : s.timeState = .set) (opened : s.service = .opened) :
    serveOpenService x s = (s, okay 1) :=
  (if_neg (by rw [set]; nofun)).trans (if_pos opened)

theorem serveOpenService_opens {x : Frame} (set : s.timeState = .set) (closed : s.service = .closed) :
    serveOpenService x s = ((State.pass { s with service := .opened } s.siteTime).settle, okay 0) :=
  (if_neg (by rw [set]; nofun)).trans (if_neg (by rw [closed]; nofun))

/-- Opening is what its pass comes to, once it has been settled. -/
theorem exec_openService {rest : List Frame} {tag : Word} (taking : Taking s [0x2102#16, tag] rest)
    (admen : s.admen = true) (set : s.timeState = .set) (closed : s.service = .closed)
    (passes : State.pass { s with service := .opened } s.siteTime = t) (calm : t.atOnce = []) :
    exec .openService s = .next (answered t rest (reply 0x21#8 tag 0x00#8 0 [])) := by
  have settles : (State.pass { s with service := .opened } s.siteTime).settle = t := by
    rw [passes, settle_none calm]
  have relinks : (State.pass { s.leaving rest with service := .opened } (s.leaving rest).siteTime).settle =
      t.leaving rest := by
    have time : (s.leaving rest).siteTime = s.siteTime := rfl
    have same : ({ s.leaving rest with service := .opened } : State) =
        State.relink { s with service := .opened } { fifo := fun _ => rest } := rfl
    rw [same, time, relink_pass, relink_settle, settles]
    rfl
  have served : serveOpenService [0x2102#16, tag] (s.leaving rest) = (t.leaving rest, okay 0) := by
    rw [serveOpenService_opens (s := s.leaving rest) set closed, relinks]
  exact serveKind_answered taking (kind := 0x21#8) (by decide) rfl (.inr ⟨rfl, admen⟩) (a := okay 0) served

theorem serveCloseService_again {x : Frame} (closed : s.service = .closed) : serveCloseService x s = (s, okay 1) :=
  if_pos closed

theorem serveCloseService_closes {x : Frame} (opened : s.service = .opened) :
    serveCloseService x s = ({ s with service := .closed }, okay 0) :=
  if_neg (by rw [opened]; nofun)

/-! ### Scans that grant no one (R115, R116) -/

/-- A state whose service is OPEN, and its entry-starved mark. -/
def State.inService (s : State) (mark : Bool) : State := { s with service := .opened, starved := mark }

theorem passesTests_inService (tests : PassesTests s p j f) (mark : Bool) : PassesTests (s.inService mark) p j f :=
  ⟨tests.waits, tests.known, tests.pooled, tests.licensed, tests.references, tests.cap⟩

theorem scanWalk_passes_all {ahead : List Nat} (passed : ∀ m ∈ ahead, PassedOver s p m) (evt : Nat) (more : List Nat) :
    scanWalk evt (ahead ++ more) s = scanWalk evt more s := by
  induction ahead with
  | nil => rfl
  | cons m ahead ih =>
    rw [List.cons_append, scanWalk_passes (visit_passedOver (passed m List.mem_cons_self))]
    exact ih fun n mem => passed n (List.mem_cons_of_mem m mem)

/-- A scan of the pool comes to no waiter that it can grant, and to none that it wants an entry for. -/
def Quiet (s : State) (p : Nat) : Prop := (s.pool p).isOver = true ∨ GrantsNoOne s p

/-- A scan of the pool stops for want of an entry. -/
def Stops (s : State) (p : Nat) : Prop := (s.pool p).isOver = false ∧ StopsForAnEntry s p

theorem scan_quiet (quiet : Quiet s p) (mark : Bool) (evt : Nat) :
    (s.inService mark).scan p evt = s.inService mark := by
  rcases quiet with isOver | ⟨ahead, behind, queue, passed, stops⟩
  · exact scan_idle (s := s.inService mark) (.inr isOver) evt
  · cases isOver : (s.pool p).isOver with
    | true => exact scan_idle (s := s.inService mark) (.inr isOver) evt
    | false =>
      have ahead' : ∀ m ∈ ahead, PassedOver (s.inService mark) p m := passed
      have same : ((s.inService mark).pool p).queue = ahead ++ behind := queue
      rw [scan_runs (s := s.inService mark) rfl isOver, same, scanWalk_passes_all ahead']
      rcases stops with rfl | ⟨j, more, f, rfl, tests, dear⟩
      · rfl
      · exact scanWalk_stops (visit_stops (passesTests_inService tests mark) dear) evt more

theorem scan_stops (stops : Stops s p) (mark : Bool) (evt : Nat) :
    (s.inService mark).scan p evt = s.inService true := by
  obtain ⟨notOver, ahead, j, more, f, queue, passed, tests, afforded, fresh, full⟩ := stops
  have ahead' : ∀ m ∈ ahead, PassedOver (s.inService mark) p m := passed
  have same : ((s.inService mark).pool p).queue = ahead ++ j :: more := queue
  rw [scan_runs (s := s.inService mark) rfl notOver, same, scanWalk_passes_all ahead']
  exact scanWalk_starves (visit_starves (passesTests_inService tests mark) afforded fresh full) evt more

/-- The scans of a pass that grants no one leave the mark, or set it where one of them stops for want of an entry. -/
theorem scans_mark (calm : s.atOnce = []) (evt n : Nat) (each : ∀ p, p < n → Quiet s p ∨ Stops s p) (mark : Bool) :
    ∃ m, (List.range n).foldl (fun acc p => (State.scan acc p evt).settleMade []) (s.inService mark) = s.inService m
      ∧ ((∃ p, p < n ∧ Stops s p) → m = true) ∧ ((∀ p, p < n → Quiet s p) → m = mark) := by
  have waits (m : Bool) : (s.inService m).settleMade [] = s.inService m :=
    settleMade_waited (by
      have none : (s.inService m).atOnce = [] := calm
      rw [none]
      nofun)
  induction n with
  | zero => exact ⟨mark, rfl, fun ⟨_, below, _⟩ => absurd below (Nat.not_lt_zero _), fun _ => rfl⟩
  | succ n ih =>
    obtain ⟨m, walked, marked, kept⟩ := ih fun p below => each p (Nat.lt_succ_of_lt below)
    have step : (List.range (n + 1)).foldl (fun acc p => (State.scan acc p evt).settleMade []) (s.inService mark) =
        ((s.inService m).scan n evt).settleMade [] := by
      rw [List.range_succ, List.foldl_append, walked]
      rfl
    rw [step]
    by_cases stops : Stops s n
    · refine ⟨true, by rw [scan_stops stops, waits], fun _ => rfl, fun quiet => ?_⟩
      have same := (scan_stops stops mark evt).symm.trans (scan_quiet (quiet n (Nat.lt_succ_self n)) mark evt)
      exact congrArg State.starved same
    · have quiet : Quiet s n := (each n (Nat.lt_succ_self n)).resolve_right stops
      refine ⟨m, by rw [scan_quiet quiet, waits], fun ⟨p, below, stopped⟩ => marked ⟨p, ?_, stopped⟩,
        fun all => kept fun p below => all p (Nat.lt_succ_of_lt below)⟩
      rcases Nat.lt_succ_iff_lt_or_eq.mp below with less | rfl
      · exact less
      · exact absurd stopped stops

theorem pass_mark (calm : s.atOnce = []) (each : ∀ p, p < 64 → Quiet s p ∨ Stops s p) (evt : Nat) :
    ∃ m, State.pass { s with service := .opened } evt = s.inService m
      ∧ ((∃ p, p < 64 ∧ Stops s p) → m = true) ∧ ((∀ p, p < 64 → Quiet s p) → m = false) := by
  obtain ⟨m, walked, marks⟩ := scans_mark calm evt 64 each false
  refine ⟨m, ?_, marks⟩
  have none : (s.inService false).atOnce = [] := calm
  have same : State.pass { s with service := .opened } evt = (s.inService false).scanAll evt := rfl
  rw [same, State.scanAll, none]
  exact walked

/-! ### A pass that grants one waiter -/

theorem scanned_empty (empty : (s.pool p).queue = []) (evt : Nat) : Scanned s p evt s :=
  ⟨fun _ _ => .inl (by rw [empty]; exact .finished s), fun _ => rfl⟩

theorem scans_serves {ahead : List Nat} (passed : ∀ m ∈ ahead, PassedOver s p m) (serves : Serves s p j k f) (evt : Nat) :
    Scans p evt (ahead ++ [j]) s (granted s p j k f evt) := by
  induction ahead with
  | nil =>
    exact .makes serves.tests serves.afforded serves.fresh serves.entry serves.lease (.finished _)
  | cons m ahead ih =>
    exact .passesOver (passed m List.mem_cons_self) (ih fun n mem => passed n (List.mem_cons_of_mem m mem))

theorem scanned_serves (opened : s.service = .opened) (serves : Serves s p j k f) (evt : Nat) :
    Scanned s p evt (granted s p j k f evt) := by
  obtain ⟨ahead, queue, passed⟩ := serves.queued
  refine ⟨fun _ _ => .inl (by rw [queue]; exact scans_serves passed serves evt), fun idle => ?_⟩
  rcases idle with closed | isOver
  · rw [opened] at closed
    cases closed
  · rw [serves.notOver] at isOver
    cases isOver

theorem pool_granted_other {q : Nat} (other : q ≠ p) : (granted s p j k f evt).pool q = s.pool q :=
  tableGet_put_other _ _ _ other

/-- A pass over queues that are empty but for one, whose scan serves its last waiter. -/
theorem passMade_serves {u : State} (cleared : { s with starved := false } = u) (opened : u.service = .opened)
    (inside : p < 64) (empty : ∀ q, q < 64 → q ≠ p → (u.pool q).queue = []) (serves : Serves u p j k f) (evt : Nat) :
    PassMade s evt (granted u p j k f evt) := by
  refine ⟨fun q => if q ≤ p then u else granted u p j k f evt, ?_, if_neg (by omega), fun q below => ?_⟩
  · rw [cleared]
    exact if_pos (Nat.zero_le p)
  dsimp only
  rcases Nat.lt_trichotomy q p with before | rfl | after
  · rw [if_pos (by omega), if_pos (by omega)]
    exact scanned_empty (empty q below (by omega)) evt
  · rw [if_pos (by omega), if_neg (by omega)]
    exact scanned_serves opened serves evt
  · rw [if_neg (by omega), if_neg (by omega)]
    refine scanned_empty ?_ evt
    rw [pool_granted_other (by omega)]
    exact empty q below (by omega)

theorem serves_inService (serves : Serves s p j k f) (mark : Bool) : Serves (s.inService mark) p j k f :=
  ⟨serves.notOver, serves.queued, passesTests_inService serves.tests mark, serves.afforded, serves.fresh, serves.entry,
    serves.lease⟩

end Sys2Proof.Machine

namespace Sys2Proof.Claims

open Sys2Proof.Machine

/-- Settles O38: the scans of the pass one after another, each of which leaves the state but for the mark. -/
theorem serviceOpensAndCloses : Obligations.ServiceOpensAndCloses := by
  refine ⟨?_, ?_⟩
  · intro s rest tag taking admen calm opened
    have refused (code : ReplyCode) (detail : Nat) (serves : serveOpenService [0x2102#16, tag] (s.leaving rest) =
        (s.leaving rest, plain code detail)) : exec .openService s = turned s rest 0x21#8 tag code.byte detail :=
      serveKind_refused taking (kind := 0x21#8) (by decide) rfl (.inr ⟨rfl, admen⟩) serves
    refine ⟨fun unset => refused .timeUnset 0 (serveOpenService_unset (s := s.leaving rest) unset),
      fun set already => refused .ok 1 (serveOpenService_again (s := s.leaving rest) set already),
      fun set closed => ⟨fun quiet => ?_, fun each stopped => ?_⟩⟩
    · obtain ⟨m, passes, -, unmarked⟩ := pass_mark calm (fun p below => .inl (quiet p below)) s.siteTime
      obtain rfl := unmarked quiet
      exact exec_openService taking admen set closed passes calm
    · have parts (p : Nat) (below : p < 64) : Quiet s p ∨ Stops s p := by
        rcases each p below with isOver | grantsNoOne | stops
        · exact .inl (.inl isOver)
        · exact .inl (.inr grantsNoOne)
        · cases isOver : (s.pool p).isOver with
          | true => exact .inl (.inl isOver)
          | false => exact .inr ⟨isOver, stops⟩
      obtain ⟨m, passes, marked, -⟩ := pass_mark calm parts s.siteTime
      obtain rfl := marked stopped
      exact exec_openService taking admen set closed passes calm
  · intro s rest tag taking admen
    have byOwner {t : State} (a : Answer) (serves : serveCloseService [0x2202#16, tag] (s.leaving rest) = (t, a)) :=
      serveKind_reply taking (kind := 0x22#8) (by decide) rfl (.inr ⟨rfl, admen⟩) serves
    exact ⟨fun closed => byOwner (okay 1) (serveCloseService_again (s := s.leaving rest) closed),
      fun opened => byOwner (okay 0) (serveCloseService_closes (s := s.leaving rest) opened)⟩

/-- Settles O39: the pass as the statements say it is made, which the model's pass comes to. -/
theorem openingGrantsTheWaiterThatFits : Obligations.OpeningGrantsTheWaiterThatFits := by
  have general (s t : State) (rest : List Frame) (tag : Word) (taking : Taking s [0x2102#16, tag] rest)
      (admen : s.admen = true) (tables : TablesOk s) (calm : s.atOnce = []) (set : s.timeState = .set)
      (closed : s.service = .closed) (made : PassMade { s with service := .opened } s.siteTime t) :
      exec .openService s = .next (answered t rest (reply 0x21#8 tag 0x00#8 0 [])) := by
    obtain ⟨passes, -, quiet⟩ := passMade_pass made ⟨tables.1, tables.2, tables.3, tables.4, tables.5, tables.6, tables.7, tables.8,
      tables.9⟩ calm
    exact exec_openService taking admen set closed passes quiet
  refine ⟨?_, ?_, general⟩
  · intro s rest tag p j k f taking admen tables calm set closed inside empty serves
    have made := passMade_serves (s := { s with service := .opened }) (u := s.inService false) rfl rfl inside empty
      (serves_inService serves false) s.siteTime
    exact general s _ rest tag taking admen tables calm set closed made
  · intro s i sec p j k f tables calm opened marked h freed lingering reached stays inside empty serves
    have ended : ∀ t, FreedScanned (leftCounted s i sec (Holding.freeEntry (nextGen h.gen))) h.pool sec t →
        exec (.lingerEnd i) s = .next t := by
      rw [leftCounted, lingering]
      exact (lingerEndFreesTheEntry s i sec tables calm stays lingering reached).2
    refine ended _ ⟨fun _ _ => ?_, fun idle => ?_⟩
    · exact passMade_serves (u := freed) rfl opened inside empty serves sec
    · rcases idle with unmarked | closed
      · exact absurd (marked.symm.trans unmarked) nofun
      · exact absurd (opened.symm.trans closed) nofun

end Sys2Proof.Claims
end

section
/-! SUPPORT. The pending records of a kind, the oldest of them, and what its report leaves: the proof of O34. -/

namespace Sys2Proof.Machine

open Sys2Proof.Claims

variable {s u : State} {n time : Nat} {k : NoticeKind}

/-! ### The entries of a table that carry a mark -/

section Marks

variable {α : Type} (mark : α → Option Nat)

/-- The marks of a table's contents, each with the number that it stands under. -/
def tableMarks (t : Table α) : List (Nat × Nat) := t.filterMap fun e => (mark e.2).map fun time => (time, e.1)

theorem mem_tableMarks {t : Table α} (rising : TableRising t) {d : α} (unmarked : mark d = none) (time i : Nat) :
    (time, i) ∈ tableMarks mark t ↔ mark (tableGet d t i) = some time := by
  rw [tableMarks, List.mem_filterMap]
  constructor
  · rintro ⟨⟨j, v⟩, listed, marked⟩
    obtain ⟨time', isMarked, same⟩ := Option.map_eq_some_iff.mp marked
    obtain ⟨rfl, rfl⟩ := Prod.mk.inj same
    rwa [tableGet_of_mem rising listed]
  · intro marked
    rw [tableGet] at marked
    cases found : tableFind t i with
    | none =>
      rw [found, Option.getD_none, unmarked] at marked
      cases marked
    | some v =>
      rw [found, Option.getD_some] at marked
      exact ⟨(i, v), mem_of_tableFind found, by rw [marked]; rfl⟩

theorem length_tableMarks (t : Table α) :
    (tableMarks mark t).length = tableSum (fun x => if (mark x).isSome then 1 else 0) t := by
  induction t with
  | nil => rfl
  | cons e t ih =>
    rw [tableSum_cons, ← ih, tableMarks, List.filterMap_cons]
    cases mark e.2 with
    | none => simp [tableMarks]
    | some time => simp [tableMarks, Nat.add_comm]

/-- A record is let go: one fewer is left. -/
theorem length_tableMarks_put [DecidableEq α] {t : Table α} (rising : TableRising t) {d v : α}
    (unmarked : mark d = none) {i time : Nat} (marked : mark (tableGet d t i) = some time) (lets : mark v = none) :
    (tableMarks mark (tablePut d t i v)).length = (tableMarks mark t).length - 1 := by
  have zero : (if (mark d).isSome then 1 else 0) = 0 := by simp [unmarked]
  have sum := tableSum_put (fun x => if (mark x).isSome then 1 else 0) zero rising i v
  simp only [marked, lets, Option.isSome_some, Option.isSome_none, if_true, Bool.false_eq_true, if_false] at sum
  rw [length_tableMarks, length_tableMarks]
  omega

end Marks

/-! ### The records of a kind (R143, R147) -/

/-- The event time of a waiter in a state. -/
def Waiter.mark (state : WaiterState) (w : Waiter) : Option Nat := if w.state = state then some w.eventTime else none

/-- The event time of a LAPSED holding. -/
def Holding.mark (h : Holding) : Option Nat := if h.state = .lapsed then some h.eventTime else none

theorem waiterMark_iff {state : WaiterState} {w : Waiter} :
    w.mark state = some time ↔ w.state = state ∧ w.eventTime = time := by
  rw [Waiter.mark]
  split
  · rename_i same
    simp [same]
  · rename_i other
    simp [other]

theorem holdingMark_iff {h : Holding} : h.mark = some time ↔ h.state = .lapsed ∧ h.eventTime = time := by
  rw [Holding.mark]
  split
  · rename_i same
    simp [same]
  · rename_i other
    simp [other]

theorem waiterRecord_eq (state : WaiterState) (l : Table Waiter) :
    l.filterMap (waiterRecord state) = tableMarks (Waiter.mark state) l := by
  refine List.filterMap_congr fun e _ => ?_
  rw [waiterRecord, Waiter.mark]
  split <;> rfl

theorem lapseRecord_eq (l : Table Holding) : l.filterMap lapseRecord = tableMarks Holding.mark l := by
  refine List.filterMap_congr fun e _ => ?_
  rw [lapseRecord, Holding.mark]
  split <;> rfl

theorem overRecord_eq (l : Table Pool) : l.filterMap overRecord = tableMarks Pool.overMark l := rfl

section Pending

variable (tables : TablesOk s)

include tables

theorem waiterPending_iff {state : WaiterState} (used : state ≠ .free) (i : Nat) :
    (time, i) ∈ s.waiters.filterMap (waiterRecord state) ↔ (s.waiter i).state = state ∧ (s.waiter i).eventTime = time := by
  rw [waiterRecord_eq, mem_tableMarks _ tables.waiters_canonical.1 (d := Waiter.initial) (if_neg used.symm)]
  exact waiterMark_iff

theorem lapsePending_iff (i : Nat) :
    (time, i) ∈ s.records .lapse ↔ (s.holding i).state = .lapsed ∧ (s.holding i).eventTime = time := by
  rw [State.records, lapseRecord_eq, mem_tableMarks _ tables.holdings_canonical.1 (d := Holding.initial) rfl]
  exact holdingMark_iff

theorem overPending_iff (i : Nat) : (time, i) ∈ s.records .poolOver ↔ (s.pool i).overMark = some time := by
  rw [State.records, overRecord_eq, mem_tableMarks _ tables.pools_canonical.1 (d := Pool.initial) rfl]
  rfl

theorem length_waiterRecords {state : WaiterState} (used : state ≠ .free) (held : (s.waiter n).state = state) (gen : Nat) :
    ((tablePut Waiter.initial s.waiters n (Waiter.freeEntry gen)).filterMap (waiterRecord state)).length =
      (s.waiters.filterMap (waiterRecord state)).length - 1 := by
  have marked : (tableGet Waiter.initial s.waiters n).mark state = some (s.waiter n).eventTime :=
    waiterMark_iff.mpr ⟨held, rfl⟩
  have unmarked (gen : Nat) : (Waiter.freeEntry gen).mark state = none := if_neg used.symm
  rw [waiterRecord_eq, waiterRecord_eq,
    length_tableMarks_put _ tables.waiters_canonical.1 (d := Waiter.initial) (unmarked 1) marked (unmarked gen)]

theorem length_lapseRecords (lapsed : (s.holding n).state = .lapsed) (gen : Nat) :
    ((tablePut Holding.initial s.holdings n (Holding.freeEntry gen)).filterMap lapseRecord).length =
      (s.records .lapse).length - 1 := by
  have marked : (tableGet Holding.initial s.holdings n).mark = some (s.holding n).eventTime :=
    holdingMark_iff.mpr ⟨lapsed, rfl⟩
  rw [State.records, lapseRecord_eq, lapseRecord_eq,
    length_tableMarks_put _ tables.holdings_canonical.1 rfl marked rfl]

theorem length_overRecords {q : Pool} (marked : (s.pool n).overMark = some time) (cleared : q.overMark = none) :
    ((tablePut Pool.initial s.pools n q).filterMap overRecord).length = (s.records .poolOver).length - 1 := by
  have isMarked : (tableGet Pool.initial s.pools n).overMark = some time := marked
  rw [State.records, overRecord_eq, overRecord_eq,
    length_tableMarks_put _ tables.pools_canonical.1 rfl isMarked cleared]

end Pending

theorem drainedPending_iff (i : Nat) :
    (time, i) ∈ s.records .drained ↔ { feature := i, eventTime := time } ∈ s.drained := by
  rw [State.records, List.mem_map]
  constructor
  · rintro ⟨d, listed, same⟩
    obtain ⟨rfl, rfl⟩ := Prod.mk.inj same
    exact listed
  · exact fun listed => ⟨_, listed, rfl⟩

/-- The oldest record of a kind is the one that comes before all in the order by event time and then by index. -/
theorem oldest_some (pending : (time, n) ∈ s.records k)
    (first : ∀ time' i, (time', i) ∈ s.records k → time < time' ∨ (time = time' ∧ n ≤ i)) :
    s.oldest k = some (time, n) := by
  cases oldest : s.oldest k with
  | none =>
    rw [firstBy_none.mp oldest] at pending
    cases pending
  | some r =>
    obtain ⟨time', i⟩ := r
    have before := first time' i (firstBy_mem oldest)
    have after := firstBy_timeThenIndex (g := id) oldest pending
    simp only [id_eq] at after
    have sameTime : time' = time := by omega
    have sameIndex : i = n := by omega
    rw [sameTime, sameIndex]

/-! ### The report (R149, R150) -/

theorem report_some (oldest : s.oldest k = some (time, n)) :
    s.report k = (s.consume k time n,
      { code := .ok, detail := k.position,
        body := wordOf ((s.consume k time n).records k).length :: s.reportWords k time n }) := by
  rw [State.report, oldest]

theorem relink_consume (l : Relinking) (k : NoticeKind) (time n : Nat) :
    (s.relink l).consume k time n = (s.consume k time n).relink l := by
  cases k with
  | grant => exact relink_placeWaiter s l n (Waiter.freeEntry (nextGen (s.waiter n).gen))
  | waitEnd => exact relink_placeWaiter s l n (Waiter.freeEntry (nextGen (s.waiter n).gen))
  | lapse =>
    have cleared : (s.relink l).clearEntry n = (s.clearEntry n).relink l := relink_placeHolding ..
    have now : (s.relink l).siteTime = s.siteTime := rfl
    simp only [State.consume, cleared, now, relink_entryFreed, relink_settle]
  | poolOver => rfl
  | drained => rfl

theorem relink_records (l : Relinking) (k : NoticeKind) : (s.relink l).records k = s.records k := by cases k <;> rfl

theorem relink_reportWords (l : Relinking) (k : NoticeKind) (time n : Nat) :
    (s.relink l).reportWords k time n = s.reportWords k time n := by cases k <;> rfl

/-- Next Notice that names a kind, from its oldest record and what the letting go of it comes to. -/
theorem exec_nextNotice {rest : List Frame} {tag selector : Word} (taking : Taking s [0x0903#16, tag, selector] rest)
    (named : selector.toNat = k.position) (oldest : s.oldest k = some (time, n)) (lets : s.consume k time n = u) :
    exec .nextNotice s =
      .next (answered u rest (reply 0x09#8 tag 0x00#8 k.position
        (wordOf (u.records k).length :: s.reportWords k time n))) := by
  have seen : (s.leaving rest).oldest k = some (time, n) := by
    rw [leaving_eq_relink, State.oldest, relink_records]
    exact oldest
  have consumed : (s.leaving rest).consume k time n = u.leaving rest := by
    rw [leaving_eq_relink, relink_consume, lets]
    rfl
  have counted : (u.leaving rest).records k = u.records k := by rw [leaving_eq_relink, relink_records]
  have words : (s.leaving rest).reportWords k time n = s.reportWords k time n := by
    rw [leaving_eq_relink, relink_reportWords]
  have served := (serveNextNotice_kind (s := s.leaving rest) (f := [0x0903#16, tag, selector]) named).trans
    (report_some seen)
  rw [consumed, counted, words] at served
  exact serveKind_answered taking (kind := 0x09#8) (by decide) rfl (.inl rfl) (owner := serveNextNotice)
    (a := { code := .ok, detail := k.position,
            body := wordOf (u.records k).length :: s.reportWords k time n }) served

/-! ### What is let go (R151 to R154) -/

theorem freeWaiterEntry_written (calm : s.atOnce = []) (n : Nat) :
    s.freeWaiterEntry n =
      { s with
        reached := s.reached.filter (fun d => !d.ofWaiter n)
        waiters := tablePut Waiter.initial s.waiters n (Waiter.freeEntry (nextGen (s.waiter n).gen)) } := by
  have lodges : waiterDeadline (n, Waiter.freeEntry (nextGen (s.waiter n).gen)) = none := rfl
  rw [State.freeWaiterEntry, placeWaiter_eq, lodges, dueNow_none, calm]
  rfl

theorem clearEntry_written (calm : s.atOnce = []) (n : Nat) :
    s.clearEntry n =
      { s with
        reached := s.reached.filter (fun d => !d.ofHolding n)
        holdings := tablePut Holding.initial s.holdings n (Holding.freeEntry (nextGen (s.holding n).gen)) } := by
  have lodges : holdingDeadline (n, Holding.freeEntry (nextGen (s.holding n).gen)) = none := rfl
  rw [State.clearEntry, placeHolding_eq, lodges, dueNow_none, calm]
  rfl

end Sys2Proof.Machine

namespace Sys2Proof.Claims

open Sys2Proof.Machine

/-- Settles O34: kind by kind, the record that comes first, what its report carries, and what is let go. -/
theorem nextNoticeReportsAndConsumesTheOldest : Obligations.NextNoticeReportsAndConsumesTheOldest := by
  intro s rest tag selector n t taking tables calm w h q left first request waiterFreed lapseReply lapseFreed
  have freed := freeWaiterEntry_written calm n
  refine ⟨fun named granted since all => ?_, fun named ended since all => ?_, fun named lapsed since all => ?_,
    fun named marked all => ?_, fun named listed all => ?_⟩
  · have pending (time i : Nat) : (time, i) ∈ s.records .grant ↔ _ := waiterPending_iff (state := .granted) tables nofun i
    have oldest : s.oldest .grant = some (t, n) :=
      oldest_some ((pending t n).mpr ⟨granted, since⟩) fun time i listed => by
        obtain ⟨state, rfl⟩ := (pending time i).mp listed
        exact all i state
    have count := length_waiterRecords (state := .granted) tables nofun granted (nextGen w.gen)
    refine (exec_nextNotice taking (by rw [named]; rfl) oldest freed).trans ?_
    simp only [State.reportWords]
    rw [show (s.waiter n).eventTime = t from since, State.records, count]
    rfl
  · have pending (time i : Nat) : (time, i) ∈ s.records .waitEnd ↔ _ := waiterPending_iff (state := .ended) tables nofun i
    have oldest : s.oldest .waitEnd = some (t, n) :=
      oldest_some ((pending t n).mpr ⟨ended, since⟩) fun time i listed => by
        obtain ⟨state, rfl⟩ := (pending time i).mp listed
        exact all i state
    have count := length_waiterRecords (state := .ended) tables nofun ended (nextGen w.gen)
    refine (exec_nextNotice taking (by rw [named]; rfl) oldest freed).trans ?_
    simp only [State.reportWords, waiterEndCode_eq]
    rw [show (s.waiter n).eventTime = t from since, State.records, count]
    rfl
  · have oldest : s.oldest .lapse = some (t, n) :=
      oldest_some ((lapsePending_iff tables n).mpr ⟨lapsed, since⟩) fun time i listed => by
        obtain ⟨state, rfl⟩ := (lapsePending_iff tables i).mp listed
        exact all i state
    have cleared := clearEntry_written calm n
    have tables' : TablesOk lapseFreed :=
      ⟨tables.1, tables.2, tables.3, tables.4, tables.5, tables.6, tables.7, tablePut_canonical tables.8 _ _, tables.9⟩
    have report {u : State} (ends : (lapseFreed.entryFreed none s.siteTime).settle = u) :
        exec .nextNotice s = .next (answered u rest (lapseReply (u.records .lapse).length)) := by
      have lets : s.consume .lapse t n = u := by
        rw [← ends, State.consume, cleared]
      refine (exec_nextNotice taking (by rw [named]; rfl) oldest lets).trans ?_
      simp only [State.reportWords, wordOf_holdingEnd]
      rw [show (s.holding n).eventTime = t from since]
      rfl
    refine ⟨fun idle => ?_, fun starved opened u made => ?_⟩
    · have stays : (lapseFreed.entryFreed none s.siteTime).settle = lapseFreed := by
        have unmarked : ¬(lapseFreed.starved = true ∧ lapseFreed.service = .opened) := by
          rintro ⟨starved, opened⟩
          rcases idle with unmarked | closed
          · exact absurd (unmarked.symm.trans starved) nofun
          · exact absurd (closed.symm.trans opened) nofun
        rw [State.entryFreed, if_neg unmarked]
        exact settle_none calm
      have count : (lapseFreed.records .lapse).length = (s.records .lapse).length - 1 :=
        length_lapseRecords tables lapsed (nextGen h.gen)
      rw [report stays, count]
    · obtain ⟨passes, -, quiet⟩ := passMade_pass made tables' calm
      have resumes : lapseFreed.entryFreed none s.siteTime = u := (if_pos ⟨starved, opened⟩).trans passes
      exact report (by rw [resumes, settle_none quiet])
  · have oldest : s.oldest .poolOver = some (t, n) :=
      oldest_some ((overPending_iff tables n).mpr marked) fun time i listed =>
        all i time ((overPending_iff tables i).mp listed)
    have left' := length_overRecords tables (q := { q with overMark := none }) marked rfl
    refine (exec_nextNotice taking (by rw [named]; rfl) oldest (u := s.setPool n { q with overMark := none }) rfl).trans ?_
    have count : ((s.setPool n { q with overMark := none }).records .poolOver).length =
        (s.records .poolOver).length - 1 := left'
    rw [count]
    rfl
  · have oldest : s.oldest .drained = some (t, n) :=
      oldest_some ((drainedPending_iff n).mpr listed) fun time i other =>
        all _ ((drainedPending_iff i).mp other)
    have lets : s.consume .drained t n = { s with drained := s.drained.erase { feature := n, eventTime := t } } := rfl
    refine (exec_nextNotice taking (by rw [named]; rfl) oldest lets).trans ?_
    have count : (State.records { s with drained := s.drained.erase { feature := n, eventTime := t } } .drained).length =
        (s.records .drained).length - 1 := by
      rw [State.records, State.records, List.length_map, List.length_map, List.length_erase_of_mem listed]
    rw [count]
    rfl

end Sys2Proof.Claims
end

section
/-! SUPPORT. The advance of site time, and a deadline that still waits when it comes: the proof of O7. -/

namespace Sys2Proof.Machine

open Sys2Proof.Claims

variable {s t u : State} {d : Deadline}

/-! ### One deadline that still waits (R132) -/

theorem reachedOf_one (released : s.resetLow = false) (only : s.reached = [d]) :
    s.reachedOf d.kind d.record = some d := by
  rw [State.reachedOf, released, only]
  simp

theorem exec_deadlineCommand (d : Deadline) (s : State) :
    exec (deadlineCommand d) s = .next (s.takeReached d.kind d.record) := by
  obtain ⟨second, kind, record⟩ := d
  cases kind <;> rfl

/-- A deadline that alone still waits is handled as its own command would handle it. -/
theorem closeSecond_one (tables : TablesOk s) (calm : s.atOnce = []) (released : s.resetLow = false)
    (only : s.reached = [d]) (handled : exec (deadlineCommand d) s = .next u) : s.closeSecond = u := by
  rw [exec_deadlineCommand, takeReached_some (reachedOf_one released only)] at handled
  obtain ⟨v, start⟩ : ∃ v, v = { s with reached := [] } := ⟨_, rfl⟩
  have vTables : TablesOk v := start ▸
    ⟨tables.1, tables.2, tables.3, tables.4, tables.5, tables.6, tables.7, tables.8, tables.9⟩
  have vCalm : v.atOnce = [] := start ▸ calm
  have taken : s.taken d = v := by
    rw [State.taken, only, start]
    simp
  have opens : ({ s with reached := [], atOnce := s.atOnce ++ s.reached } : State) = { v with atOnce := [d] } := by
    rw [start, calm, only]
    rfl
  rw [← Host.Outcome.next.inj handled, taken, State.closeSecond, opens, settle_first vTables vCalm]

theorem relink_closeSecond (s : State) (l : Relinking) : (s.relink l).closeSecond = s.closeSecond.relink l :=
  relink_settle (s := { s with reached := [], atOnce := s.atOnce ++ s.reached }) l

theorem advance_below (below : s.siteTime < 4294967295) (closed : s.closeSecond = u) :
    s.advance =
      { u with
        divider := 0
        siteTime := u.siteTime + 1
        reached := u.deadlines.filter (fun d => d.second == u.siteTime + 1) } := by
  have parted : State.closeSecond { s with divider := 0 } = u.relink { divider := fun _ => 0 } := by
    rw [← closed]
    exact relink_closeSecond s { divider := fun _ => 0 }
  rw [State.advance, if_neg (Nat.not_le.mpr below), parted]
  rfl

theorem closeSecond_siteTime (s : State) : s.closeSecond.siteTime = s.siteTime := siteTime_of_still (still_settle _)

end Sys2Proof.Machine

namespace Sys2Proof.Claims

open Sys2Proof.Machine

/-- Settles O7: the divider, the turn of the second, and the deadline that waits as its own command handles it. -/
theorem siteTimeCountsFromRefclk : Obligations.SiteTimeCountsFromRefclk := by
  intro s released
  have counts (set : s.timeState = .set) : s.counting = true := counting_true released set
  refine ⟨fun unset => ?_, fun set below => exec_refclkPeriod_raises (counts set) (Nat.succ_lt_succ below),
    fun set last => ?_, fun set below none calm => ?_, fun set below calm tables => ?_, fun set top => ?_,
    fun set bound => ⟨fun n below => afterPeriods_raise (counts set) (Nat.lt_succ_of_le below), s.advance,
      exec_siteTimeAdvance (counts set), afterPeriods_turn (counts set) bound⟩⟩
  · have idle : s.counting = false := by simp [State.counting, unset]
    exact ⟨if_pos idle, if_pos idle⟩
  · rw [exec_refclkPeriod_turns (counts set) (Nat.succ_le_succ last), exec_siteTimeAdvance (counts set)]
  · rw [exec_siteTimeAdvance (counts set), advance_below below (closeSecond_none none calm)]
  · intro turned
    have waits (d : Deadline) (u : State) (only : s.reached = [d]) (handled : exec (deadlineCommand d) s = .next u) :
        exec .siteTimeAdvance s = .next (turned u) := by
      have closed := closeSecond_one tables calm released only handled
      have now : u.siteTime = s.siteTime := closed ▸ closeSecond_siteTime s
      rw [exec_siteTimeAdvance (counts set), advance_below below closed, now]
    refine ⟨fun d u _ only handled => waits d u only handled, ?_⟩
    intro i sec u h reason only live stays scanned
    refine waits ⟨sec, .leaseExpiry, i⟩ u only ?_
    rw [leftCounted, live] at scanned
    exact ((leaseExpiryAndBorrowEndLapseTheHolding s i sec tables calm stays).1 live
      (reachedOf_one released only)).2 u scanned
  · rw [exec_siteTimeAdvance (counts set)]
    exact congrArg Host.Outcome.next (if_pos (by rw [top]))

end Sys2Proof.Claims
end

section
/-! SUPPORT. The first Set Time and a forward step, with the deadlines that it passes: the proof of O36. -/

namespace Sys2Proof.Machine

open Sys2Proof.Claims

variable {s t u : State} {i j k sec v : Nat} {f : Feature}

/-! ### The step (R137, R139) -/

theorem serveSetTime_first {x : Frame} (unset : s.timeState = .unset) :
    serveSetTime x s = (s.stepTo (field32 x 2), timeAnswer .ok 0 (s.stepTo (field32 x 2))) := if_pos unset

theorem serveSetTime_ahead {x : Frame} (counts : s.timeState = .set) (ahead : s.siteTime < field32 x 2) :
    serveSetTime x s = (s.stepTo (field32 x 2), timeAnswer .ok 1 (s.stepTo (field32 x 2))) :=
  (if_neg (by rw [counts]; nofun)).trans (if_pos ahead)

/-- A state with site time set, its deadlines not yet looked at. -/
def State.timed (s : State) (v : Nat) : State := { s with siteTime := v, timeState := .set, divider := 0 }

/-- A state in which a request has been answered and site time set. -/
def stepped (s : State) (rest : List Frame) (r : Frame) (v : Nat) : State := (answered s rest r).timed v

theorem stepTo_written (closed : s.closeSecond = u) (v : Nat) :
    s.stepTo v = State.settle { u.timed v with atOnce := u.deadlines.filter (fun d => decide (d.second ≤ v)) } := by
  rw [State.stepTo, closed]
  rfl

theorem leaving_stepTo (s : State) (rest : List Frame) (v : Nat) :
    (s.leaving rest).stepTo v = (s.stepTo v).leaving rest := by
  have parted : (s.leaving rest).closeSecond = s.closeSecond.leaving rest := by
    rw [leaving_eq_relink, relink_closeSecond]
    rfl
  rw [stepTo_written parted, stepTo_written (u := s.closeSecond) rfl]
  exact relink_settle (s := { s.closeSecond.timed v with
    atOnce := s.closeSecond.deadlines.filter (fun d => decide (d.second ≤ v)) }) { fifo := fun _ => rest }

/-- The order in which the step is made and the reply placed does not matter. -/
theorem answered_stepTo (closed : s.closeSecond = u) (rest : List Frame) (r : Frame) (v : Nat) :
    answered (s.stepTo v) rest r =
      State.settle
        { stepped u rest r v with atOnce := u.deadlines.filter (fun d => decide (d.second ≤ v)) } := by
  rw [stepTo_written closed]
  exact (relink_settle (s := { u.timed v with atOnce := u.deadlines.filter (fun d => decide (d.second ≤ v)) })
    { fifo := fun _ => rest, replies := fun l => l ++ [r] }).symm

section Steps

variable {rest : List Frame} {tag hi lo : Word} (taking : Taking s [0x2004#16, tag, hi, lo] rest) (admen : s.admen = true)
  (closed : s.closeSecond = u)

include taking admen closed

theorem exec_setTime_steps {detail : Nat}
    (served : serveSetTime [0x2004#16, tag, hi, lo] (s.leaving rest) =
      ((s.leaving rest).stepTo (value32 hi lo), timeAnswer .ok detail ((s.leaving rest).stepTo (value32 hi lo)))) :
    exec .setTime s = .next (State.settle
      { stepped u rest (reply 0x20#8 tag 0x00#8 detail (two (value32 hi lo))) (value32 hi lo) with
        atOnce := u.deadlines.filter (fun d => decide (d.second ≤ value32 hi lo)) }) := by
  have answer : timeAnswer .ok detail ((s.leaving rest).stepTo (value32 hi lo)) =
      { code := .ok, detail := detail, body := two (value32 hi lo) } := by
    rw [timeAnswer, stepTo_siteTime]
    rfl
  rw [answer, leaving_stepTo] at served
  rw [← answered_stepTo closed]
  exact serveKind_answered taking (kind := 0x20#8) (by decide) rfl (.inr ⟨rfl, admen⟩) (owner := serveSetTime)
    (a := { code := .ok, detail := detail, body := two (value32 hi lo) }) served

theorem exec_setTime_first (unset : s.timeState = .unset) :
    exec .setTime s = .next (State.settle
      { stepped u rest (reply 0x20#8 tag 0x00#8 0 (two (value32 hi lo))) (value32 hi lo) with
        atOnce := u.deadlines.filter (fun d => decide (d.second ≤ value32 hi lo)) }) :=
  exec_setTime_steps taking admen closed (serveSetTime_first (s := s.leaving rest) unset)

theorem exec_setTime_ahead (counts : s.timeState = .set) (ahead : s.siteTime < value32 hi lo) :
    exec .setTime s = .next (State.settle
      { stepped u rest (reply 0x20#8 tag 0x00#8 1 (two (value32 hi lo))) (value32 hi lo) with
        atOnce := u.deadlines.filter (fun d => decide (d.second ≤ value32 hi lo)) }) :=
  exec_setTime_steps taking admen closed (serveSetTime_ahead (s := s.leaving rest) counts ahead)

end Steps

/-! ### The deadlines that a step passes (R139) -/

theorem settle_passes_none (calm : s.atOnce = []) {l : List Deadline} (none : l = []) :
    State.settle { s with atOnce := l } = s := by
  rw [none, eq_of_calm calm, settle_none calm]

/-- The reason of a holding that a lease expiry lapses. -/
def State.lapseReasonAt (s : State) (i sec : Nat) : HoldingEnd :=
  if (s.feature (s.holding i).feature).bind Feature.endInstant = some sec then .featureEnd else .lease

/-- A lease expiry lapses its holding, among others that are still to be handled. -/
theorem handle_lease_among (tables : TablesOk s) (live : (s.holding i).state = .live) (stays : NoDrain s i) (sec : Nat) :
    s.handle ⟨sec, .leaseExpiry, i⟩ =
      State.scan
        { leftCounted s i sec ((s.holding i).lapsedAs (s.lapseReasonAt i sec) sec) with
          atOnce := s.atOnce.filter (fun d => !d.ofHolding i) } (s.holding i).pool sec := by
  rw [State.handle]
  simp only []
  rw [handleLeaseExpiry_lapses live, uncount_among tables rfl stays]
  rfl

theorem handle_lease (tables : TablesOk s) (calm : s.atOnce = []) (live : (s.holding i).state = .live)
    (stays : NoDrain s i) (sec : Nat) :
    s.handle ⟨sec, .leaseExpiry, i⟩ =
      (leftCounted s i sec ((s.holding i).lapsedAs (s.lapseReasonAt i sec) sec)).scan (s.holding i).pool sec := by
  have quiet : (leftCounted s i sec ((s.holding i).lapsedAs (s.lapseReasonAt i sec) sec)).atOnce = [] := calm
  rw [handle_lease_among tables live stays, calm, List.filter_nil, eq_of_calm quiet]

/-- Of two deadlines of different seconds the earlier is taken. -/
theorem takeDue_earlier {d e : Deadline} (before : d.second < e.second) :
    State.takeDue { s with atOnce := [d, e] } = some (d, { s with atOnce := [e] }) := by
  have first : earliest [d, e] = [d] := by
    simp [earliest, Nat.le_of_lt before, Nat.not_le.mpr before]
  rw [State.takeDue, first, State.takeAmong, List.erase_cons_head]

theorem takeDue_later {d e : Deadline} (before : e.second < d.second) :
    State.takeDue { s with atOnce := [d, e] } = some (e, { s with atOnce := [d] }) := by
  have first : earliest [d, e] = [e] := by
    simp [earliest, Nat.le_of_lt before, Nat.not_le.mpr before]
  have other : d ≠ e := fun same => absurd before (by rw [same]; exact Nat.lt_irrefl _)
  have left : [d, e].erase e = [d] := by simp [other]
  rw [State.takeDue, first, State.takeAmong, left]

theorem timed_tables (tables : TablesOk s) (rest : List Frame) (r : Frame) (v : Nat) : TablesOk (stepped s rest r v) :=
  ⟨tables.1, tables.2, tables.3, tables.4, tables.5, tables.6, tables.7, tables.8, tables.9⟩

/-- The wait deadline of a waiter that a scan grants is withdrawn with the grant. -/
theorem settle_lease_then_grant (tables : TablesOk s) (calm : s.atOnce = []) (live : (s.holding i).state = .live)
    (stays : NoDrain s i) {sec' : Nat} (before : sec < sec') (opened : s.service = .opened)
    {served : State} (refunded : leftCounted s i sec ((s.holding i).lapsedAs (s.lapseReasonAt i sec) sec) = served)
    (serves : Serves served (s.holding i).pool j k f) (queued : (served.pool (s.holding i).pool).queue = [j]) :
    State.settle { s with atOnce := [⟨sec, .leaseExpiry, i⟩, ⟨sec', .waitDeadline, j⟩] } =
      granted served (s.holding i).pool j k f sec := by
  have sTables := tables.withDeadlines s.reached [⟨sec, .leaseExpiry, i⟩, ⟨sec', .waitDeadline, j⟩] s.choices
  have wTables := tables.withDeadlines s.reached [⟨sec', .waitDeadline, j⟩] s.choices
  have kept : [(⟨sec', .waitDeadline, j⟩ : Deadline)].filter (fun d => !d.ofHolding i) = [⟨sec', .waitDeadline, j⟩] := by
    simp [Deadline.ofHolding]
  have gone : [(⟨sec', .waitDeadline, j⟩ : Deadline)].filter (fun d => !d.ofHolding k && !d.ofWaiter j) = [] := by
    simp [Deadline.ofWaiter]
  have handled := handle_lease_among (s := { s with atOnce := [⟨sec', .waitDeadline, j⟩] }) wTables live stays sec
  have servedTables : TablesOk served := refunded ▸ leftCounted_tables tables i sec
  have servedCalm : served.atOnce = [] := refunded ▸ calm
  have servedOpen : served.service = .opened := refunded ▸ opened
  obtain ⟨u, made⟩ : ∃ u, u = { served with atOnce := [(⟨sec', .waitDeadline, j⟩ : Deadline)] } := ⟨_, rfl⟩
  have lapsed : State.handle { s with atOnce := [⟨sec', .waitDeadline, j⟩] } ⟨sec, .leaseExpiry, i⟩ =
      u.scan (s.holding i).pool sec := by
    rw [handled, kept, made, ← refunded]
    rfl
  have tests : PassesTests u (s.holding i).pool j f := by
    obtain ⟨waits, known, pooled, licensed, references, cap⟩ := serves.tests
    rw [made]
    exact ⟨waits, known, pooled, licensed, references, cap⟩
  have grants : u.scan (s.holding i).pool sec = granted served (s.holding i).pool j k f sec := by
    have visits : u.visit j = .grant f .fresh (f.weight * (u.waiter j).seats) k := by
      refine visit_makes tests ?_ ?_ ?_
      · rw [made]
        exact serves.afforded
      · rw [made]
        exact serves.fresh
      · rw [made]
        exact serves.entry
    have uOpen : u.service = .opened := made ▸ servedOpen
    have notOver : (u.pool (s.holding i).pool).isOver = false := by
      rw [made]
      exact serves.notOver
    have queue : (u.pool (s.holding i).pool).queue = [j] := by
      rw [made]
      exact queued
    have canonical : TableCanonical Pool.initial u.pools := made ▸ servedTables.pools_canonical
    have left : u.atOnce = [⟨sec', .waitDeadline, j⟩] := by rw [made]
    have ahead : u.siteTime < u.leaseEnd f := by
      rw [made]
      exact serves.lease
    have quiet : (granted served (s.holding i).pool j k f sec).atOnce = [] := servedCalm
    rw [scan_runs uOpen notOver, queue, scanWalk_grants visits, scanWalk, grantWaiter_among canonical, left, gone,
      dueNow_ahead ahead, List.append_nil, tests.pooled, made]
    exact eq_of_calm quiet
  have quiet : (granted served (s.holding i).pool j k f sec).atOnce = [] := servedCalm
  rw [settle_take sTables (takeDue_earlier before), lapsed, grants, settle_none quiet]

/-- A wait deadline that comes before the lease expiry ends the waiter, and the scan finds its queue empty. -/
theorem settle_wait_then_lease (tables : TablesOk s) (calm : s.atOnce = []) (live : (s.holding i).state = .live)
    (stays : NoDrain s i) {sec' : Nat} (before : sec' < sec) (waits : (s.waiter j).state = .waiting)
    (known : s.feature (s.waiter j).feature = some f) (queued : (s.pool f.pool).queue = [j])
    (pooled : f.pool = (s.holding i).pool)
    {gone : State} (ended : { s with
      reached := s.reached.filter (fun d => !d.ofWaiter j)
      waiters := tablePut Waiter.initial s.waiters j ((s.waiter j).endedAs (f.waitReason sec') sec')
      pools := tablePut Pool.initial s.pools f.pool { s.pool f.pool with queue := [] } } = gone) :
    State.settle { s with atOnce := [⟨sec, .leaseExpiry, i⟩, ⟨sec', .waitDeadline, j⟩] } =
      leftCounted gone i sec ((s.holding i).lapsedAs (s.lapseReasonAt i sec) sec) := by
  have sTables := tables.withDeadlines s.reached [⟨sec, .leaseExpiry, i⟩, ⟨sec', .waitDeadline, j⟩] s.choices
  have home : s.featureOf (s.waiter j).feature = f := featureOf_known known
  have kept : [(⟨sec, .leaseExpiry, i⟩ : Deadline)].filter (fun d => !d.ofWaiter j) = [⟨sec, .leaseExpiry, i⟩] := by
    simp [Deadline.ofWaiter]
  have goneTables : TablesOk gone := ended ▸
    ⟨tables.1, tablePut_canonical tables.2 _ _, tables.3, tables.4, tables.5, tables.6, tables.7, tables.8,
      tablePut_canonical tables.9 _ _⟩
  have goneCalm : gone.atOnce = [] := ended ▸ calm
  have handled : State.handle { s with atOnce := [⟨sec, .leaseExpiry, i⟩] } ⟨sec', .waitDeadline, j⟩ =
      { gone with atOnce := [⟨sec, .leaseExpiry, i⟩] } := by
    have ends : State.handle { s with atOnce := [⟨sec, .leaseExpiry, i⟩] } ⟨sec', .waitDeadline, j⟩ =
        State.endWaiter { s with atOnce := [⟨sec, .leaseExpiry, i⟩] } j
          ((s.featureOf (s.waiter j).feature).waitReason sec') sec' := if_pos waits
    have place : State.featureOf { s with atOnce := [⟨sec, .leaseExpiry, i⟩] } (s.waiter j).feature = f := home
    have figures : State.pool { s with atOnce := [⟨sec, .leaseExpiry, i⟩] } f.pool = s.pool f.pool := rfl
    have entry : State.waiter { s with atOnce := [⟨sec, .leaseExpiry, i⟩] } j = s.waiter j := rfl
    have emptied : [j].filter (fun m => m != j) = [] := by simp
    rw [ends, home, endWaiter_written, entry, place, figures, queued, emptied, kept, ← ended]
  have lapses : gone.handle ⟨sec, .leaseExpiry, i⟩ =
      leftCounted gone i sec ((s.holding i).lapsedAs (s.lapseReasonAt i sec) sec) := by
    have empty : ((leftCounted gone i sec ((s.holding i).lapsedAs (s.lapseReasonAt i sec) sec)).pool
        (s.holding i).pool).queue = [] := by
      rw [leftCounted_queue, ← ended, ← pooled]
      exact congrArg Pool.queue (tableGet_put_same ..)
    have entry : gone.holding i = s.holding i := ended ▸ rfl
    have reason : gone.lapseReasonAt i sec = s.lapseReasonAt i sec := ended ▸ rfl
    have goneStays : NoDrain gone i := ended ▸ stays
    rw [handle_lease goneTables goneCalm (entry ▸ live) goneStays, entry, reason]
    exact scan_empty empty sec
  have quiet : (leftCounted gone i sec ((s.holding i).lapsedAs (s.lapseReasonAt i sec) sec)).atOnce = [] := goneCalm
  rw [settle_take sTables (takeDue_later before), handled, settle_first goneTables goneCalm, lapses, settle_none quiet]

end Sys2Proof.Machine

namespace Sys2Proof.Claims

open Sys2Proof.Machine

/-- Settles O36: the step with none, one or two deadlines passed, or with one that still waited. -/
theorem setTimeStepsForward : Obligations.SetTimeStepsForward := by
  intro s rest tag hi lo taking admen calm v stepped'
  have quiet (u : State) (uCalm : u.atOnce = []) (r : Frame) : (stepped u rest r v).atOnce = [] := uCalm
  refine ⟨fun none later => ⟨fun unset => ?_, fun counts ahead => ?_⟩, fun i sec tables counts ahead => ?_⟩
  · have passed : s.deadlines.filter (fun d => decide (d.second ≤ v)) = [] :=
      List.filter_eq_nil_iff.mpr fun d listed => by simpa using later d listed
    rw [exec_setTime_first taking admen (closeSecond_none none calm) unset, settle_passes_none (quiet s calm _) passed]
    rfl
  · have passed : s.deadlines.filter (fun d => decide (d.second ≤ v)) = [] :=
      List.filter_eq_nil_iff.mpr fun d listed => by simpa using later d listed
    rw [exec_setTime_ahead taking admen (closeSecond_none none calm) counts ahead,
      settle_passes_none (quiet s calm _) passed]
    rfl
  · intro h reason lapsed passed live stays
    obtain ⟨a, start⟩ : ∃ a, a = stepped s rest (reply 0x20#8 tag 0x00#8 1 (two v)) v := ⟨_, rfl⟩
    have aTables : TablesOk a := start ▸ timed_tables tables ..
    have aCalm : a.atOnce = [] := start ▸ calm
    have entry : a.holding i = h := start ▸ rfl
    have why : a.lapseReasonAt i sec = reason := start ▸ rfl
    refine ⟨fun none one => ?_, fun j k sec' f none both opened queued waits known pooled => ?_,
      fun j k f only opened => ?_⟩
    · have done : exec .setTime s = .next ((leftCounted a i sec lapsed).scan h.pool sec).settle := by
        rw [exec_setTime_ahead taking admen (closeSecond_none none calm) counts ahead]
        refine congrArg Host.Outcome.next ?_
        have found : s.deadlines.filter (fun d => decide (d.second ≤ v)) = [⟨sec, .leaseExpiry, i⟩] := one
        rw [found, ← start, settle_first aTables aCalm,
          handle_lease aTables aCalm (entry ▸ live) (start ▸ stays), entry, why]
        rfl
      refine ⟨fun idle => ?_, fun t scanned => ?_⟩
      · have idle' : NoOneServed a h.pool := start ▸ idle
        rw [done, noOneServed_scan (noOneServed_leftCounted idle' ..),
          settle_none (s := leftCounted a i sec lapsed) aCalm, start]
        rfl
      · have scanned' : Scanned (leftCounted a i sec lapsed) h.pool sec t := start ▸ scanned
        rw [done, (scanned_scan scanned' (leftCounted_tables aTables ..) aCalm).1]
    · intro refunded ended waiterGone
      have done : exec .setTime s =
          .next (State.settle { a with atOnce := [⟨sec, .leaseExpiry, i⟩, ⟨sec', .waitDeadline, j⟩] }) := by
        rw [exec_setTime_ahead taking admen (closeSecond_none none calm) counts ahead]
        have found : s.deadlines.filter (fun d => decide (d.second ≤ v)) =
          [⟨sec, .leaseExpiry, i⟩, ⟨sec', .waitDeadline, j⟩] := both
        rw [found, ← start]
      refine ⟨fun before serves => ?_, fun before => ?_⟩
      · have same : leftCounted a i sec ((a.holding i).lapsedAs (a.lapseReasonAt i sec) sec) = refunded := by
          rw [entry, why, start]
          rfl
        have place : (a.holding i).pool = h.pool := congrArg Holding.pool entry
        have queue : (refunded.pool (a.holding i).pool).queue = [j] := by
          rw [← same, leftCounted_queue, place, start]
          exact queued
        rw [done, settle_lease_then_grant aTables aCalm (entry ▸ live) (start ▸ stays) before (start ▸ opened) same
          (place ▸ serves) queue, place]
      · have gone : ({ a with
            reached := a.reached.filter (fun d => !d.ofWaiter j)
            waiters := tablePut Waiter.initial a.waiters j ((a.waiter j).endedAs (f.waitReason sec') sec')
            pools := tablePut Pool.initial a.pools f.pool { a.pool f.pool with queue := [] } } : State) = waiterGone := by
          have unreached : a.reached = [] := start ▸ none
          rw [unreached, List.filter_nil, ← none, pooled, start]
          rfl
        rw [done, settle_wait_then_lease aTables aCalm (entry ▸ live) (start ▸ stays) before (start ▸ waits)
          (start ▸ known) (by rw [start, pooled]; exact queued) (pooled.trans (congrArg Holding.pool entry).symm) gone,
          entry, why]
        rfl
    · intro refunded served serves later
      have made : Scanned refunded h.pool sec served :=
        scanned_serves (s := refunded) opened serves sec
      have expires : exec (.leaseExpiry i) s = .next served := by
        refine ((leaseExpiryAndBorrowEndLapseTheHolding s i sec tables calm stays).1 live
          (reachedOf_one (d := ⟨sec, .leaseExpiry, i⟩) taking.released only)).2 served ?_
        have same : refunded = leftCounted s i sec lapsed := rfl
        rw [same, leftCounted, live] at made
        exact made
      have closed : s.closeSecond = served :=
        closeSecond_one (d := ⟨sec, .leaseExpiry, i⟩) tables calm taking.released only expires
      have passedNone : served.deadlines.filter (fun d => decide (d.second ≤ v)) = [] :=
        List.filter_eq_nil_iff.mpr fun d listed => by simpa using later d listed
      have servedCalm : served.atOnce = [] := calm
      rw [exec_setTime_ahead taking admen closed counts ahead, settle_passes_none (quiet served servedCalm _) passedNone]
      rfl

end Sys2Proof.Claims
end

section
/-! SUPPORT. Define Feature that gives an ACTIVE feature another end day: the deadlines lowered, as they stand before any
of them is handled. -/

namespace Sys2Proof.Machine

open Sys2Proof.Claims

variable {s u : State} {c e : Nat}

/-! ### A walk over a table that withdraws and lodges deadlines -/

theorem any_entry {α : Type} {t : Table α} (rising : TableRising t) (d : α) {test : α → Bool} (unlisted : test d = false)
    (i : Nat) : t.any (fun x => x.1 == i && test x.2) = test (tableGet d t i) := by
  rw [Bool.eq_iff_iff, List.any_eq_true]
  constructor
  · rintro ⟨x, listed, found⟩
    obtain ⟨rfl, passes⟩ : x.1 = i ∧ test x.2 = true := by simpa using found
    rwa [tableGet_of_mem rising listed]
  · intro passes
    rw [tableGet] at passes
    cases found : tableFind t i with
    | none =>
      rw [found, Option.getD_none, unlisted] at passes
      cases passes
    | some v =>
      rw [found, Option.getD_some] at passes
      exact ⟨(i, v), mem_of_tableFind found, by simpa using passes⟩

section Walk

variable {α : Type} {own : Nat → Deadline → Bool} (owns : ∀ i d, own i d = (own d.record d && (i == d.record)))
  {test : α → Bool} {carry : Nat × α → Option Deadline} {act : State → Nat × α → State}

include owns

theorem walk_reached
    (reach : ∀ u x, (act u x).reached = if test x.2 then u.reached.filter (fun d => !own x.1 d) else u.reached)
    (l : Table α) (u : State) :
    (l.foldl act u).reached =
      u.reached.filter (fun d => !(own d.record d && l.any (fun x => x.1 == d.record && test x.2))) := by
  induction l generalizing u with
  | nil => simp
  | cons x l ih =>
    rw [List.foldl_cons, ih, reach]
    by_cases passes : test x.2 = true
    · rw [if_pos passes, filter_both]
      refine List.filter_congr fun d _ => ?_
      rw [owns x.1, List.any_cons, passes]
      cases own d.record d <;> cases x.1 == d.record <;> simp
    · rw [if_neg passes]
      refine List.filter_congr fun d _ => ?_
      rw [List.any_cons, Bool.eq_false_iff.mpr passes]
      simp

theorem walk_atOnce (time : ∀ u x, (act u x).siteTime = u.siteTime)
    (carries : ∀ x d, carry x = some d → d.record = x.1)
    (once : ∀ u x, (act u x).atOnce =
      if test x.2 then u.atOnce.filter (fun d => !own x.1 d) ++ dueNow u.siteTime (carry x) else u.atOnce)
    {l : Table α} (rising : TableRising l) (u : State) :
    (l.foldl act u).atOnce =
      u.atOnce.filter (fun d => !(own d.record d && l.any (fun x => x.1 == d.record && test x.2)))
        ++ (l.filter (fun x => test x.2)).flatMap (fun x => dueNow u.siteTime (carry x)) := by
  induction l generalizing u with
  | nil => simp
  | cons x l ih =>
    obtain ⟨above, rising⟩ := List.pairwise_cons.mp rising
    rw [List.foldl_cons, ih rising, once, time]
    by_cases passes : test x.2 = true
    · have stays : (dueNow u.siteTime (carry x)).filter
          (fun d => !(own d.record d && l.any (fun x => x.1 == d.record && test x.2))) =
          dueNow u.siteTime (carry x) := by
        refine List.filter_eq_self.mpr fun d due => ?_
        have own := carries x d (Option.mem_toList.mp (List.mem_filter.mp due).1)
        have absent : l.any (fun x => x.1 == d.record && test x.2) = false := by
          refine List.any_eq_false.mpr fun y listed => ?_
          have apart := above y listed
          simp [own, Nat.ne_of_gt apart]
        rw [absent]
        simp
      have head : (x :: l).filter (fun x => test x.2) = x :: l.filter (fun x => test x.2) :=
        List.filter_cons_of_pos (p := fun x : Nat × α => test x.2) passes
      rw [if_pos passes, List.filter_append, stays, filter_both, head, List.flatMap_cons, List.append_assoc]
      refine congrArg (fun l' : List Deadline => l' ++ _) (List.filter_congr fun d _ => ?_)
      rw [owns x.1, List.any_cons, passes]
      cases own d.record d <;> cases x.1 == d.record <;> simp
    · have head : (x :: l).filter (fun x => test x.2) = l.filter (fun x => test x.2) :=
        List.filter_cons_of_neg (p := fun x : Nat × α => test x.2) passes
      rw [if_neg passes, head]
      refine congrArg (fun l' : List Deadline => l' ++ _) (List.filter_congr fun d _ => ?_)
      rw [List.any_cons, Bool.eq_false_iff.mpr passes]
      simp

end Walk

/-! ### The deadlines lowered to a new end instant (R17) -/

/-- The holding's deadline lies past the feature's new end instant. -/
def Holding.isPast (c e : Nat) (h : Holding) : Bool := h.state.counted && decide (h.feature = c ∧ e < h.deadline)

/-- The waiter's deadline lies past the feature's new end instant. -/
def Waiter.isPast (c e : Nat) (w : Waiter) : Bool := w.waitsFor c && decide (e < w.deadline)

theorem holding_isPast {h : Holding} :
    h.isPast c e = true ↔ h.state.counted = true ∧ h.feature = c ∧ e < h.deadline := by
  simp [Holding.isPast]

theorem waiter_isPast {w : Waiter} : w.isPast c e = true ↔ w.state = .waiting ∧ w.feature = c ∧ e < w.deadline := by
  simp [Waiter.isPast, Waiter.waitsFor, and_assoc]

theorem lowered_holding (h : Holding) : h.lowered c e = if h.isPast c e then { h with deadline := e } else h := by
  simp only [Holding.lowered, holding_isPast]

theorem lowered_waiter (w : Waiter) : w.lowered c e = if w.isPast c e then { w with deadline := e } else w := by
  simp only [Waiter.lowered, waiter_isPast]

/-- One entry of the walks of R17. -/
def State.lowerHolding (c e : Nat) (u : State) (x : Nat × Holding) : State :=
  if x.2.isPast c e then u.placeHolding x.1 { x.2 with deadline := e } else u

def State.lowerWaiter (c e : Nat) (u : State) (x : Nat × Waiter) : State :=
  if x.2.isPast c e then u.placeWaiter x.1 { x.2 with deadline := e } else u

theorem reclamp_walks (s : State) (c e : Nat) :
    s.reclamp c e = s.waiters.foldl (State.lowerWaiter c e) (s.holdings.foldl (State.lowerHolding c e) s) := by
  have holdings : s.lowerHoldings c e = s.holdings.foldl (State.lowerHolding c e) s := by
    unfold State.lowerHoldings State.lowerHolding
    simp only [holding_isPast]
  rw [reclamp_eq, holdings]
  unfold State.lowerWaiter
  simp only [waiter_isPast]

/-- The holdings' deadlines that the lowering brings to the past. -/
def State.holdingsDue (s : State) (c e : Nat) : List Deadline :=
  (s.holdings.filter (fun x => x.2.isPast c e)).flatMap fun x =>
    dueNow s.siteTime (holdingDeadline (x.1, { x.2 with deadline := e }))

/-- The waiters' deadlines that the lowering brings to the past. -/
def State.waitersDue (s : State) (c e : Nat) : List Deadline :=
  (s.waiters.filter (fun x => x.2.isPast c e)).flatMap fun x =>
    dueNow s.siteTime (waiterDeadline (x.1, { x.2 with deadline := e }))

theorem ofHolding_owns (i : Nat) (d : Deadline) : d.ofHolding i = (d.ofHolding d.record && (i == d.record)) := by
  simp only [Deadline.ofHolding, beq_self_eq_true, Bool.true_and]
  rw [Bool.and_comm, Bool.beq_comm (a := d.record)]

theorem ofWaiter_owns (j : Nat) (d : Deadline) : d.ofWaiter j = (d.ofWaiter d.record && (j == d.record)) := by
  simp only [Deadline.ofWaiter, beq_self_eq_true, Bool.true_and]
  rw [Bool.and_comm, Bool.beq_comm (a := d.record)]

/-- The deadline is one of a holding that lies past the new end instant. -/
def State.pastHolding (s : State) (c e : Nat) (d : Deadline) : Bool :=
  d.ofHolding d.record && (s.holding d.record).isPast c e

/-- The deadline is one of a waiter that lies past the new end instant. -/
def State.pastWaiter (s : State) (c e : Nat) (d : Deadline) : Bool :=
  d.ofWaiter d.record && (s.waiter d.record).isPast c e

theorem lowerHolding_siteTime (u : State) (x : Nat × Holding) : (u.lowerHolding c e x).siteTime = u.siteTime := by
  unfold State.lowerHolding
  split
  · exact placeHolding_siteTime ..
  · rfl

theorem lowerHoldings_siteTime (l : Table Holding) (u : State) :
    (l.foldl (State.lowerHolding c e) u).siteTime = u.siteTime :=
  foldl_keeps State.siteTime _ lowerHolding_siteTime l u

theorem holdingsDue_kind {d : Deadline} (due : d ∈ s.holdingsDue c e) :
    ∃ x ∈ s.holdings, x.2.isPast c e = true ∧ x.2.state.deadlineKind = some d.kind ∧ d.record = x.1 ∧ d.second = e
      ∧ e ≤ s.siteTime := by
  obtain ⟨x, kept, lodged⟩ := List.mem_flatMap.mp due
  obtain ⟨listed, past⟩ := List.mem_filter.mp kept
  obtain ⟨carried, now⟩ := List.mem_filter.mp lodged
  obtain ⟨k, kind, rfl⟩ := Option.map_eq_some_iff.mp (Option.mem_toList.mp carried)
  exact ⟨x, listed, past, kind, rfl, rfl, of_decide_eq_true now⟩

theorem waitersDue_kind {d : Deadline} (due : d ∈ s.waitersDue c e) :
    ∃ x ∈ s.waiters, x.2.isPast c e = true ∧ d = ⟨e, .waitDeadline, x.1⟩ ∧ e ≤ s.siteTime := by
  obtain ⟨x, kept, lodged⟩ := List.mem_flatMap.mp due
  obtain ⟨listed, past⟩ := List.mem_filter.mp kept
  obtain ⟨carried, now⟩ := List.mem_filter.mp lodged
  have waits : x.2.state = .waiting := (waiter_isPast.mp past).1
  have same : waiterDeadline (x.1, { x.2 with deadline := e }) = some ⟨e, .waitDeadline, x.1⟩ := if_pos waits
  obtain rfl : ⟨e, .waitDeadline, x.1⟩ = d := Option.some.inj (same.symm.trans (Option.mem_toList.mp carried))
  exact ⟨x, listed, past, rfl, of_decide_eq_true now⟩

theorem not_ofWaiter_of_kind {state : HoldingState} {d : Deadline} (kind : state.deadlineKind = some d.kind) (j : Nat) :
    d.ofWaiter j = false := by
  have other : (d.kind == .waitDeadline) = false := by
    rw [beq_eq_false_iff_ne]
    intro same
    rw [same] at kind
    cases state <;> cases kind
  rw [Deadline.ofWaiter, other, Bool.and_false]

section Reclamped

variable (tables : TablesOk s)

include tables

theorem reclamp_reached (c e : Nat) :
    (s.reclamp c e).reached = s.reached.filter (fun d => !s.pastHolding c e d && !s.pastWaiter c e d) := by
  have holdings := walk_reached ofHolding_owns (test := Holding.isPast c e) (act := State.lowerHolding c e)
    (fun u x => by rw [State.lowerHolding]; split <;> simp [placeHolding_eq]) s.holdings s
  have waiters := walk_reached ofWaiter_owns (test := Waiter.isPast c e) (act := State.lowerWaiter c e)
    (fun u x => by rw [State.lowerWaiter]; split <;> simp [placeWaiter_eq]) s.waiters
    (s.holdings.foldl (State.lowerHolding c e) s)
  simp only [any_entry tables.holdings_canonical.1 Holding.initial (test := Holding.isPast c e) rfl] at holdings
  simp only [any_entry tables.waiters_canonical.1 Waiter.initial (test := Waiter.isPast c e) rfl] at waiters
  rw [reclamp_walks, waiters, holdings, filter_both]
  rfl

theorem reclamp_atOnce (calm : s.atOnce = []) (c e : Nat) :
    (s.reclamp c e).atOnce = s.holdingsDue c e ++ s.waitersDue c e := by
  have holdings := walk_atOnce ofHolding_owns (test := Holding.isPast c e) (act := State.lowerHolding c e)
    (carry := fun x => holdingDeadline (x.1, { x.2 with deadline := e })) lowerHolding_siteTime
    (fun x d carried => by
      obtain ⟨k, -, rfl⟩ := Option.map_eq_some_iff.mp carried
      rfl)
    (fun u x => by rw [State.lowerHolding]; split <;> simp [placeHolding_eq]) tables.holdings_canonical.1 s
  have waiters := walk_atOnce ofWaiter_owns (test := Waiter.isPast c e) (act := State.lowerWaiter c e)
    (carry := fun x => waiterDeadline (x.1, { x.2 with deadline := e }))
    (fun u x => by rw [State.lowerWaiter]; split <;> simp [placeWaiter_eq])
    (fun x d carried => by
      rw [waiterDeadline] at carried
      split at carried
      · rw [← Option.some.inj carried]
      · cases carried)
    (fun u x => by rw [State.lowerWaiter]; split <;> simp [placeWaiter_eq]) tables.waiters_canonical.1
    (s.holdings.foldl (State.lowerHolding c e) s)
  rw [calm, List.filter_nil, List.nil_append] at holdings
  rw [lowerHoldings_siteTime, holdings] at waiters
  rw [reclamp_walks, waiters]
  refine congrArg (fun l : List Deadline => l ++ _) (List.filter_eq_self.mpr fun d due => ?_)
  obtain ⟨x, -, -, kind, -⟩ := holdingsDue_kind (s := s) (c := c) (e := e) due
  rw [not_ofWaiter_of_kind kind]
  rfl

end Reclamped

theorem reclamp_rest (s : State) (c e : Nat) :
    { s.reclamp c e with holdings := s.holdings, waiters := s.waiters, reached := s.reached, atOnce := s.atOnce } = s := by
  let look (u : State) : State :=
    { u with holdings := s.holdings, waiters := s.waiters, reached := s.reached, atOnce := s.atOnce }
  have waiters := foldl_keeps look (State.lowerWaiter c e)
    (fun u x => by rw [State.lowerWaiter]; split <;> simp [look, placeWaiter_eq]) s.waiters
    (s.holdings.foldl (State.lowerHolding c e) s)
  have holdings := foldl_keeps look (State.lowerHolding c e)
    (fun u x => by rw [State.lowerHolding]; split <;> simp [look, placeHolding_eq]) s.holdings s
  rw [← reclamp_walks] at waiters
  exact waiters.trans holdings

/-! ### The record placed once the deadlines have been lowered (R17, R136) -/

/-- A feature record replaced with another end instant, before what that reaches is handled. -/
def State.redefined (s : State) (c e : Nat) (g : Feature) : State := (s.reclamp c e).placeFeature c g

section Redefined

variable (g : Feature)

theorem redefined_rest (s : State) (c e : Nat) :
    { s.redefined c e g with holdings := s.holdings, waiters := s.waiters, reached := s.reached, atOnce := s.atOnce } =
      { s with features := tableInsert s.features c g.lodged } := by
  have rest := reclamp_rest s c e
  have features : (s.reclamp c e).features = s.features := (congrArg State.features rest :)
  rw [State.redefined, placeFeature_eq, features]
  exact congrArg (fun u : State => { u with features := tableInsert s.features c g.lodged }) rest

variable (tables : TablesOk s)

include tables

theorem redefined_holding (c e i : Nat) : (s.redefined c e g).holding i = (s.holding i).lowered c e := by
  rw [State.redefined, placeFeature_eq]
  exact holding_reclamp tables.holdings_canonical.1 c e i

theorem redefined_waiter (c e j : Nat) : (s.redefined c e g).waiter j = (s.waiter j).lowered c e := by
  rw [State.redefined, placeFeature_eq]
  exact waiter_reclamp tables.waiters_canonical.1 c e j

theorem redefined_reached (c e : Nat) :
    (s.redefined c e g).reached =
      s.reached.filter (fun d => !(d.ofFeature c || s.pastHolding c e d || s.pastWaiter c e d)) := by
  rw [State.redefined, placeFeature_eq]
  simp only [reclamp_reached tables, List.filter_filter]
  refine List.filter_congr fun d _ => ?_
  cases d.ofFeature c <;> cases s.pastHolding c e d <;> rfl

theorem redefined_atOnce (calm : s.atOnce = []) {e : Nat} (ending : g.endInstant = some e) (c : Nat) :
    (s.redefined c e g).atOnce =
      (s.holdingsDue c e ++ s.waitersDue c e).filter (fun d => !d.ofFeature c)
        ++ dueNow s.siteTime (some ⟨e, .featureEnd, c⟩) := by
  have rest := reclamp_rest s c e
  have time : (s.reclamp c e).siteTime = s.siteTime := (congrArg State.siteTime rest :)
  rw [State.redefined, placeFeature_eq, reclamp_atOnce tables calm, featureDeadline_lodged ending, time]

/-- An end instant that lies ahead reaches nothing. -/
theorem redefined_calm (calm : s.atOnce = []) {e : Nat} (ending : g.endInstant = some e) (ahead : s.siteTime < e) (c : Nat) :
    (s.redefined c e g).atOnce = [] := by
  have holdings : s.holdingsDue c e = [] := List.eq_nil_iff_forall_not_mem.mpr fun d due => by
    obtain ⟨-, -, -, -, -, -, past⟩ := holdingsDue_kind due
    exact absurd ahead (Nat.not_lt.mpr past)
  have waiters : s.waitersDue c e = [] := List.eq_nil_iff_forall_not_mem.mpr fun d due => by
    obtain ⟨-, -, -, -, past⟩ := waitersDue_kind due
    exact absurd ahead (Nat.not_lt.mpr past)
  rw [redefined_atOnce g tables calm ending, holdings, waiters, dueNow_ahead ahead]
  rfl

end Redefined

theorem replaceFeature_eq (s : State) (c : Nat) (old new : Feature) :
    s.replaceFeature c old new =
      if new.endDay = old.endDay then s.setFeature c { new with endLodged := old.endLodged }
      else ((s.reclamped c new).placeFeature c new).settle := rfl

theorem relink_replaceFeature (l : Relinking) (c : Nat) (old new : Feature) :
    (s.relink l).replaceFeature c old new = (s.replaceFeature c old new).relink l := by
  rw [replaceFeature_eq, replaceFeature_eq, relink_reclamped, relink_placeFeature, relink_settle]
  split <;> rfl

theorem replaceFeature_ends {old new : Feature} (other : new.endDay ≠ old.endDay) (ending : new.endInstant = some e) :
    s.replaceFeature c old new = (s.redefined c e new).settle := by
  rw [State.replaceFeature, if_neg other, ending]
  rfl

theorem replaceFeature_perpetual {old new : Feature} (other : new.endDay ≠ old.endDay) (perpetual : new.endInstant = none) :
    s.replaceFeature c old new = (s.placeFeature c new).settle := by
  rw [State.replaceFeature, if_neg other, perpetual]

/-- Define Feature that replaces the record of an ACTIVE feature, its pool and its sharing kind as they were. -/
theorem exec_defineFeature_replaces {rest : List Frame} {tag : Word} {x : FeatureWords} {old : Feature}
    (taking : Taking s (x.frame tag) rest) (admen : s.admen = true) (fields : ∀ n, ¬x.fails n)
    (known : s.feature x.code.toNat = some old) (active : old.state = .active) (pool : x.pool.toNat = old.pool)
    (sharing : (x.record false).sharing = old.sharing) (good : x.badOffset s = none) :
    exec .defineFeature s =
      .next (answered (s.replaceFeature x.code.toNat old (x.record false)) rest (reply 0x28#8 tag 0x00#8 1 [])) := by
  have passes := featureBadWord_passes fields tag
  have carried := carriedFeature_record fields tag
  have chain : (s.leaving rest).featureChainFault (carriedFeature (x.frame tag)) = none := by
    rw [carried, featureChainFault_record]
    exact good
  have unused : (s.leaving rest).featureUse x.code.toNat old (carriedFeature (x.frame tag)) = none := by
    rw [carried]
    exact if_pos ⟨pool, sharing⟩
  have served := serveDefineFeature_replaces (s := s.leaving rest) passes (old := old) known active unused chain
  have parted : (s.leaving rest).replaceFeature x.code.toNat old (x.record false) =
      (s.replaceFeature x.code.toNat old (x.record false)).leaving rest := by
    rw [leaving_eq_relink, relink_replaceFeature]
    rfl
  rw [carried] at served
  refine serveKind_answered taking (kind := 0x28#8) (by decide) rfl (.inr ⟨rfl, admen⟩)
    (owner := serveDefineFeature) (t := s.replaceFeature x.code.toNat old (x.record false))
    (a := okay 1) (served.trans ?_)
  exact congrArg (fun v : State => (v, okay 1)) parted

end Sys2Proof.Machine
end

section
/-! SUPPORT. An end instant at or before site time: the deadlines that it brings about are handled one after another, in
whatever order, and what they come to. -/

namespace Sys2Proof.Machine

open Sys2Proof.Claims

variable {s t u v : State} {c e p : Nat}

/-! ### Figures summed over a table by the numbers of its entries -/

section ByNumber

variable {α : Type}

/-- A bound on the numbers that a table lists. -/
theorem exists_above (t : Table α) : ∃ n, ∀ x ∈ t, x.1 < n :=
  ⟨(t.map Prod.fst).sum + 1, fun _ listed =>
    Nat.lt_succ_of_le (List.le_sum_of_mem (List.mem_map_of_mem (f := Prod.fst) listed))⟩

theorem sum_by_number {d : α} {figure : Nat → α → Nat} (zero : ∀ i, figure i d = 0) {t : Table α}
    (rising : TableRising t) {n : Nat} (above : ∀ x ∈ t, x.1 < n) :
    (t.map (fun x => figure x.1 x.2)).sum = ∑ i ∈ Finset.range n, figure i (tableGet d t i) := by
  induction t with
  | nil => exact (Finset.sum_eq_zero fun i _ => zero i).symm
  | cons x t ih =>
    obtain ⟨k, w⟩ := x
    obtain ⟨beyond, rising⟩ := List.pairwise_cons.mp rising
    have below : k < n := above (k, w) List.mem_cons_self
    have split (i : Nat) : figure i (tableGet d ((k, w) :: t) i) =
        figure i (tableGet d t i) + if i = k then figure k w else 0 := by
      by_cases here : i = k
      · subst here
        have absent : tableGet d t i = d := tableGet_unlisted fun y listed => Nat.ne_of_gt (beyond y listed)
        rw [absent, zero]
        simp [tableGet, tableFind]
      · have other : ¬k = i := fun same => here same.symm
        simp [here, other, tableGet, tableFind]
    rw [List.map_cons, List.sum_cons, ih rising fun y listed => above y (List.mem_cons_of_mem _ listed),
      Finset.sum_congr rfl fun i _ => split i, Finset.sum_add_distrib, Finset.sum_ite_eq',
      if_pos (Finset.mem_range.mpr below), Nat.add_comm]

/-- Figures that differ at one number differ by the figure there. -/
theorem sum_apart {d : α} {t t' : Table α} (rising : TableRising t) (rising' : TableRising t') {figure figure' : Nat → α → Nat}
    (zero : ∀ i, figure i d = 0) (zero' : ∀ i, figure' i d = 0) (k more : Nat)
    (apart : ∀ i, figure i (tableGet d t i) = figure' i (tableGet d t' i) + if i = k then more else 0) :
    (t.map (fun x => figure x.1 x.2)).sum = (t'.map (fun x => figure' x.1 x.2)).sum + more := by
  obtain ⟨n, above⟩ := exists_above t
  obtain ⟨m, above'⟩ := exists_above t'
  rw [sum_by_number zero rising (n := max (max n m) (k + 1)) (fun x listed => by have := above x listed; omega),
    sum_by_number zero' rising' (n := max (max n m) (k + 1)) (fun x listed => by have := above' x listed; omega),
    Finset.sum_congr rfl fun i _ => apart i, Finset.sum_add_distrib, Finset.sum_ite_eq',
    if_pos (Finset.mem_range.mpr (by omega))]

/-- Figures that agree at every number have one sum. -/
theorem sum_alike {d : α} {t t' : Table α} (rising : TableRising t) (rising' : TableRising t') {figure figure' : Nat → α → Nat}
    (zero : ∀ i, figure i d = 0) (zero' : ∀ i, figure' i d = 0)
    (alike : ∀ i, figure i (tableGet d t i) = figure' i (tableGet d t' i)) :
    (t.map (fun x => figure x.1 x.2)).sum = (t'.map (fun x => figure' x.1 x.2)).sum :=
  sum_apart rising rising' zero zero' 0 0 fun i => by rw [alike, ite_self, Nat.add_zero]

theorem sum_filter_map (l : List α) (test : α → Bool) (figure : α → Nat) :
    ((l.filter test).map figure).sum = (l.map (fun x => if test x then figure x else 0)).sum := by
  induction l with
  | nil => rfl
  | cons x l ih => by_cases passes : test x <;> simp [passes, ih]

end ByNumber

/-! ### The state while the deadlines of an end instant are handled -/

/-- Site time has come to the end instant of a feature, and no scan of its pool has anyone to serve. -/
structure AtEnd (c e p : Nat) (u : State) : Prop where
  known : ∃ g, u.feature c = some g ∧ g.state = .active ∧ g.pool = p ∧ g.endInstant = some e
  due : e ≤ u.siteTime
  idle : u.service = .closed ∨ (u.starved = false ∧ ∀ j ∈ (u.pool p).queue, (u.waiter j).feature = c)

namespace AtEnd

theorem visit (atEnd : AtEnd c e p u) {j : Nat} (waits : (u.waiter j).feature = c) : u.visit j = .passOver := by
  obtain ⟨⟨g, known, -, -, ending⟩, due, -⟩ := atEnd
  have ended : g.ended u.siteTime = true := by
    rw [Feature.ended, ending]
    exact decide_eq_true due
  rw [State.visit, waits, known]
  simp only [ended, if_true, ite_self]

theorem scan (atEnd : AtEnd c e p u) (evt : Nat) : u.scan p evt = u := by
  rcases atEnd.idle with closed | ⟨-, queued⟩
  · exact scan_closed closed p evt
  have walk (l : List Nat) (part : ∀ j ∈ l, (u.waiter j).feature = c) : scanWalk evt l u = u := by
    induction l with
    | nil => rfl
    | cons j l ih =>
      rw [scanWalk_passes (atEnd.visit (part j List.mem_cons_self))]
      exact ih fun k listed => part k (List.mem_cons_of_mem j listed)
  rw [State.scan]
  split
  · exact walk _ queued
  · rfl

theorem entryFreed (atEnd : AtEnd c e p u) (evt : Nat) : u.entryFreed (some p) evt = u := by
  rcases atEnd.idle with closed | ⟨unmarked, -⟩
  · exact entryFreed_closed closed ..
  · rw [State.entryFreed, unmarked]
    exact atEnd.scan evt

theorem noDrain (atEnd : AtEnd c e p u) {i : Nat} (named : (u.holding i).feature = c) : NoDrain u i := by
  obtain ⟨⟨g, known, active, -⟩, -⟩ := atEnd
  exact noDrain_active (named ▸ known) active

end AtEnd

/-- A deadline to be handled at the end instant `e` of the feature `c`: that of one of its holdings in its pool `p`, of one of
its WAITING waiters, or its own. -/
def OfEnd (c e p : Nat) (u : State) (d : Deadline) : Prop :=
  d.second = e ∧
    (((u.holding d.record).state.deadlineKind = some d.kind ∧ (u.holding d.record).feature = c
        ∧ (u.holding d.record).pool = p)
      ∨ (d.kind = .waitDeadline ∧ (u.waiter d.record).waitsFor c = true)
      ∨ (d.kind = .featureEnd ∧ d.record = c))

/-- The state while the deadlines of an end instant are handled. -/
structure Ending (c e p : Nat) (u : State) : Prop where
  tables : TablesOk u
  atEnd : AtEnd c e p u
  agrees : (u.pool p).isOver = decide ((u.pool p).capacity < (u.pool p).used ∨ (u.pool p).capacity < u.reserveSum p)
  pending : ∀ d ∈ u.atOnce, OfEnd c e p u d

/-! ### What the deadlines come to -/

/-- The holding's deadline is to be handled at once. -/
def State.dueHolding (u : State) (i : Nat) : Bool := u.atOnce.any (fun d => d.ofHolding i)

/-- The end instant of the feature is to be handled at once. -/
def State.dueFeature (u : State) (c : Nat) : Bool := u.atOnce.any (fun d => d.ofFeature c)

/-- The waiter is to be ended at once, by its own deadline or with its feature's end instant. -/
def State.dueWaiter (u : State) (c j : Nat) : Bool :=
  u.atOnce.any (fun d => d.ofWaiter j) || (u.dueFeature c && (u.waiter j).waitsFor c)

/-- A holding once the end instant of its feature has been handled (R87, R100, R73). -/
def Holding.endedAt (e : Nat) (h : Holding) : Holding :=
  if h.state = .lingering then Holding.freeEntry (nextGen h.gen)
  else h.lapsedAs (if h.state = .borrowed then .borrowEnd else .featureEnd) e

/-- The tokens of the holdings to be ended at once that a test names. -/
def State.dueTokens (u : State) (named : Holding → Bool) : Nat :=
  ((u.holdings.filter (fun y => u.dueHolding y.1 && named y.2)).map (fun y => y.2.tokens)).sum

/-- The feature's pool once the deadlines have been handled. -/
def State.closedPool (u : State) (c p : Nat) : Pool :=
  { u.pool p with
    used := (u.pool p).used - u.dueTokens (fun _ => true)
    borrowed := (u.pool p).borrowed - u.dueTokens (fun h => h.state == .borrowed)
    lingering := (u.pool p).lingering - u.dueTokens (fun h => h.state == .lingering)
    isOver := decide ((u.pool p).capacity < (u.pool p).used - u.dueTokens (fun _ => true)
      ∨ (u.pool p).capacity < u.reserveSum p)
    queue := (u.pool p).queue.filter (fun j => !u.dueWaiter c j) }

/-- The deadline is of a record to be ended at once. -/
def State.dueRecord (u : State) (c : Nat) (d : Deadline) : Bool :=
  (d.ofHolding d.record && u.dueHolding d.record) || (d.ofWaiter d.record && u.dueWaiter c d.record)

/-- The features once the deadlines have been handled. -/
def State.closedFeatures (u : State) (c : Nat) : Table Feature :=
  if u.dueFeature c then tableInsert u.features c { u.featureOf c with endLodged := false } else u.features

/-- A state without what the handling of these deadlines changes. -/
def State.bare (u : State) : State :=
  { u with
    features := [], pools := [], allotments := [], holdings := [], waiters := [], reached := [], atOnce := [], choices := 0 }

/-- What the handling of the deadlines of an end instant comes to. -/
structure Closes (c e p : Nat) (u t : State) : Prop where
  holding : ∀ i, t.holding i = if u.dueHolding i then (u.holding i).endedAt e else u.holding i
  waiter : ∀ j, t.waiter j = if u.dueWaiter c j then (u.waiter j).endedAs .expired e else u.waiter j
  others : ∀ k, k ≠ p → t.pool k = u.pool k
  home : t.pool p = u.closedPool c p
  allotments : t.allotments = u.allotments.map (fun a =>
    if a.pool = p then { a with used := a.used - u.dueTokens (fun h => h.project == a.project) } else a)
  reached : t.reached = u.reached.filter (fun d => !u.dueRecord c d)
  features : t.features = u.closedFeatures c
  atOnce : t.atOnce = []
  bare : t.bare = u.bare

section Calm

variable (calm : u.atOnce = [])

include calm

theorem dueHolding_calm (i : Nat) : u.dueHolding i = false := by rw [State.dueHolding, calm, List.any_nil]

theorem dueFeature_calm (c : Nat) : u.dueFeature c = false := by rw [State.dueFeature, calm, List.any_nil]

theorem dueWaiter_calm (c j : Nat) : u.dueWaiter c j = false := by
  rw [State.dueWaiter, dueFeature_calm calm, calm, List.any_nil, Bool.false_and, Bool.or_false]

theorem dueTokens_calm (named : Holding → Bool) : u.dueTokens named = 0 := by
  simp [State.dueTokens, dueHolding_calm calm]

theorem Ending.closes (ending : Ending c e p u) : Closes c e p u u := by
  have home : u.closedPool c p = u.pool p := by
    rw [State.closedPool, dueTokens_calm calm, dueTokens_calm calm, dueTokens_calm calm]
    simp only [dueWaiter_calm calm, Nat.sub_zero, ← ending.agrees, Bool.not_false, List.filter_true]
  refine ⟨fun i => ?_, fun j => ?_, fun _ _ => rfl, home.symm, ?_, ?_, ?_, calm, rfl⟩
  · rw [dueHolding_calm calm]
    rfl
  · rw [dueWaiter_calm calm]
    rfl
  · simp only [dueTokens_calm calm, Nat.sub_zero, ite_self, List.map_id']
  · simp [State.dueRecord, dueHolding_calm calm, dueWaiter_calm calm]
  · rw [State.closedFeatures, dueFeature_calm calm]
    rfl

end Calm

/-! ### A holding that its deadline ends -/

theorem refundedPool_unmarked {q : Pool} {reserves : Nat}
    (agrees : q.isOver = decide (q.capacity < q.used ∨ q.capacity < reserves)) (st : HoldingState) (tokens evt : Nat) :
    refundedPool q st tokens reserves evt =
      { q with
        used := q.used - tokens
        borrowed := if st = .borrowed then q.borrowed - tokens else q.borrowed
        lingering := if st = .lingering then q.lingering - tokens else q.lingering
        isOver := decide (q.capacity < q.used - tokens ∨ q.capacity < reserves) } := by
  have unmarked : ¬((q.capacity < q.used - tokens ∨ q.capacity < reserves) ∧ q.isOver = false ∧ q.overMark = none) := by
    rintro ⟨passes, notOver, -⟩
    rw [agrees, decide_eq_false_iff_not] at notOver
    omega
  rw [refundedPool, withOver]
  simp only [if_neg unmarked]

/-- A holding of the feature ended, its deadlines no longer among those to be handled. -/
def State.endedHolding (u : State) (e i : Nat) : State :=
  { leftCounted u i e ((u.holding i).endedAt e) with atOnce := u.atOnce.filter (fun d => !d.ofHolding i) }

theorem holding_endedHolding (u : State) (e i k : Nat) :
    (u.endedHolding e i).holding k = if k = i then (u.holding i).endedAt e else u.holding k := tableGet_put ..

theorem pool_endedHolding (u : State) (e i k : Nat) :
    (u.endedHolding e i).pool k =
      if k = (u.holding i).pool then
        refundedPool (u.pool k) (u.holding i).state (u.holding i).tokens (u.reserveSum k) e
      else u.pool k := by
  refine (tableGet_put ..).trans ?_
  split
  · rename_i here
    rw [here]
  · rfl

theorem AtEnd.endedHolding (atEnd : AtEnd c e p u) (i : Nat) : AtEnd c e p (u.endedHolding e i) := by
  have queue : ((u.endedHolding e i).pool p).queue = (u.pool p).queue := by
    rw [pool_endedHolding]
    split <;> rfl
  refine ⟨atEnd.known, atEnd.due, ?_⟩
  rw [queue]
  exact atEnd.idle

theorem endedAt_uncounted (h : Holding) (e : Nat) : (h.endedAt e).state.counted = false := by
  unfold Holding.endedAt
  split <;> rfl

theorem handle_dueHolding (atEnd : AtEnd c e p u) (tables : TablesOk u) {k : DeadlineKind} {i : Nat}
    (kind : (u.holding i).state.deadlineKind = some k) (named : (u.holding i).feature = c)
    (pooled : (u.holding i).pool = p) : u.handle ⟨e, k, i⟩ = u.endedHolding e i := by
  have ends (x : Holding) (same : (u.holding i).endedAt e = x) : u.uncount i x e = u.endedHolding e i := by
    rw [← same, uncount_among tables (endedAt_uncounted ..) (atEnd.noDrain named)]
    rfl
  obtain ⟨g, known, -, -, ending⟩ := atEnd.known
  have reason : (u.feature (u.holding i).feature).bind Feature.endInstant = some e := by
    rw [named, known]
    exact ending
  have scans := (atEnd.endedHolding i).scan e
  rw [State.handle]
  cases held : (u.holding i).state with
  | free =>
    rw [held] at kind
    cases kind
  | live =>
    rw [held] at kind
    cases kind
    have same : (u.holding i).endedAt e = (u.holding i).lapsedAs .featureEnd e := by
      rw [Holding.endedAt, held]
      rfl
    simp only []
    rw [handleLeaseExpiry_lapses held, if_pos reason, ends _ same, pooled, scans]
  | borrowed =>
    rw [held] at kind
    cases kind
    have same : (u.holding i).endedAt e = (u.holding i).lapsedAs .borrowEnd e := by
      rw [Holding.endedAt, held]
      rfl
    simp only []
    rw [handleBorrowEnd_lapses held, ends _ same, pooled, scans]
  | lingering =>
    rw [held] at kind
    cases kind
    have same : (u.holding i).endedAt e = Holding.freeEntry (nextGen (u.holding i).gen) := if_pos held
    simp only []
    rw [handleLingerEnd_frees held, ends _ same, pooled, (atEnd.endedHolding i).entryFreed e]
  | lapsed =>
    rw [held] at kind
    cases kind

section EndedHolding

variable (i : Nat)

theorem dueHolding_endedHolding (k : Nat) :
    (u.endedHolding e i).dueHolding k = if k = i then false else u.dueHolding k := by
  have any : (u.endedHolding e i).dueHolding k = u.atOnce.any (fun d => !d.ofHolding i && d.ofHolding k) :=
    List.any_filter
  rw [any]
  split
  · rename_i here
    subst here
    simp
  · rename_i other
    refine congrArg u.atOnce.any (funext fun d => ?_)
    cases own : d.ofHolding k with
    | false => rw [Bool.and_false]
    | true =>
      have record : d.record = k := by
        simp only [Deadline.ofHolding, Bool.and_eq_true, beq_iff_eq] at own
        exact own.1
      rw [not_ofHolding (record ▸ other)]
      rfl

theorem dueFeature_endedHolding (c : Nat) : (u.endedHolding e i).dueFeature c = u.dueFeature c := by
  refine (List.any_filter).trans (congrArg u.atOnce.any (funext fun d => ?_))
  obtain ⟨second, kind, record⟩ := d
  cases kind <;> simp [Deadline.ofHolding, Deadline.ofFeature]

theorem dueWaiter_endedHolding (c j : Nat) : (u.endedHolding e i).dueWaiter c j = u.dueWaiter c j := by
  have own : (u.endedHolding e i).atOnce.any (fun d => d.ofWaiter j) = u.atOnce.any (fun d => d.ofWaiter j) := by
    refine (List.any_filter).trans (congrArg u.atOnce.any (funext fun d => ?_))
    obtain ⟨second, kind, record⟩ := d
    cases kind <;> simp [Deadline.ofHolding, Deadline.ofWaiter]
  rw [State.dueWaiter, own, dueFeature_endedHolding]
  rfl

theorem dueRecord_endedHolding (due : u.dueHolding i = true) (c : Nat) (d : Deadline) :
    (!d.ofHolding i && !(u.endedHolding e i).dueRecord c d) = !u.dueRecord c d := by
  rw [State.dueRecord, State.dueRecord, dueHolding_endedHolding, dueWaiter_endedHolding, ofHolding_owns i]
  by_cases here : d.record = i
  · subst here
    simp [due]
  · have other : (i == d.record) = false := beq_eq_false_iff_ne.mpr fun same => here same.symm
    simp [here, other]

theorem dueTokens_endedHolding (tables : TablesOk u) (due : u.dueHolding i = true) (named : Holding → Bool) :
    u.dueTokens named =
      (if named (u.holding i) then (u.holding i).tokens else 0) + (u.endedHolding e i).dueTokens named := by
  have after := (leftCounted_tables tables i e (x := (u.holding i).endedAt e)).holdings_canonical.1
  rw [Nat.add_comm, State.dueTokens, State.dueTokens, sum_filter_map, sum_filter_map]
  refine sum_apart (d := Holding.initial) (t := u.holdings) (t' := (u.endedHolding e i).holdings)
    (figure := fun k h => if u.dueHolding k && named h then h.tokens else 0)
    (figure' := fun k h => if (u.endedHolding e i).dueHolding k && named h then h.tokens else 0)
    tables.holdings_canonical.1 after (fun _ => ite_self 0) (fun _ => ite_self 0) i _ fun k => ?_
  have entry := holding_endedHolding u e i k
  rw [State.holding] at entry
  rw [entry, dueHolding_endedHolding]
  by_cases here : k = i
  · subst here
    simp only [if_true, due, Bool.true_and, Bool.false_and, Bool.false_eq_true, if_false, Nat.zero_add]
    rfl
  · simp only [if_neg here, Nat.add_zero]
    rfl

theorem reserveSum_endedHolding (u : State) (e i k : Nat) : (u.endedHolding e i).reserveSum k = u.reserveSum k := by
  have same := reserveSum_refund (s := u) (h := u.holding i) (evt := e) (k := k)
  rw [State.reserveSum, refund_allotments] at same
  exact same

theorem Ending.endedHolding (ending : Ending c e p u) (pooled : (u.holding i).pool = p) :
    Ending c e p (u.endedHolding e i) := by
  refine ⟨(leftCounted_tables ending.tables i e).withDeadlines _ _ _, ending.atEnd.endedHolding i, ?_, fun d listed => ?_⟩
  · rw [pool_endedHolding, if_pos pooled.symm, reserveSum_endedHolding]
    rfl
  · obtain ⟨pending, kept⟩ := List.mem_filter.mp listed
    obtain ⟨second, shape⟩ := ending.pending d pending
    refine ⟨second, shape.imp_left fun ⟨kind, named, pool⟩ => ?_⟩
    have other : d.record ≠ i := by
      rintro rfl
      rw [ofHolding_of_kind kind] at kept
      cases kept
    rw [holding_endedHolding, if_neg other]
    exact ⟨kind, named, pool⟩

theorem closedPool_endedHolding (ending : Ending c e p u) (due : u.dueHolding i = true)
    (pooled : (u.holding i).pool = p) : (u.endedHolding e i).closedPool c p = u.closedPool c p := by
  have tokens := dueTokens_endedHolding (e := e) i ending.tables due
  have figures := pool_endedHolding u e i p
  rw [if_pos pooled.symm, refundedPool_unmarked ending.agrees] at figures
  have part (st : HoldingState) (total tokens more : Nat) :
      total - ((if (u.holding i).state = st then tokens else 0) + more) =
        (if (u.holding i).state = st then total - tokens else total) - more := by
    split <;> omega
  rw [State.closedPool, State.closedPool, figures, reserveSum_endedHolding, tokens, tokens, tokens]
  simp only [dueWaiter_endedHolding, if_true, beq_iff_eq, part, Nat.sub_add_eq]

theorem Closes.of_endedHolding (ending : Ending c e p u) (due : u.dueHolding i = true)
    (pooled : (u.holding i).pool = p) (closes : Closes c e p (u.endedHolding e i) t) : Closes c e p u t := by
  have tokens := dueTokens_endedHolding (e := e) i ending.tables due
  obtain ⟨holding, waiter, others, home, allotments, reached, features, atOnce, bare⟩ := closes
  refine ⟨fun k => ?_, fun j => ?_, fun k other => ?_, ?_, ?_, ?_, ?_, atOnce, bare⟩
  · rw [holding, dueHolding_endedHolding, holding_endedHolding]
    by_cases here : k = i
    · subst here
      simp [due]
    · simp only [if_neg here]
  · rw [waiter, dueWaiter_endedHolding]
    rfl
  · rw [others k other, pool_endedHolding, if_neg (pooled ▸ other)]
  · rw [home, closedPool_endedHolding i ending due pooled]
  · rw [allotments]
    refine (List.map_map ..).trans (List.map_congr_left fun a _ => ?_)
    rw [Function.comp_apply, pooled]
    by_cases here : a.pool = p
    · simp only [here, and_true, tokens, beq_iff_eq]
      by_cases own : a.project = (u.holding i).project
      · simp only [own, if_true, Nat.sub_add_eq]
      · have other : ¬(u.holding i).project = a.project := fun same => own same.symm
        simp only [if_neg own, if_neg other, here, if_true, Nat.zero_add]
    · simp only [here, and_false, if_false]
  · rw [reached]
    refine (filter_both ..).trans (List.filter_congr fun d _ => ?_)
    exact dueRecord_endedHolding i due c d
  · rw [features, State.closedFeatures, dueFeature_endedHolding]
    rfl

end EndedHolding

/-! ### Waiters that end -/

theorem any_erase_of {l : List Deadline} {named : Deadline → Bool} {d : Deadline} (gone : named d = false) :
    (l.erase d).any named = l.any named := by
  rw [Bool.eq_iff_iff, List.any_eq_true, List.any_eq_true]
  constructor
  · rintro ⟨x, listed, passes⟩
    exact ⟨x, List.mem_of_mem_erase listed, passes⟩
  · rintro ⟨x, listed, passes⟩
    have other : x ≠ d := fun same => by rw [same, gone] at passes; cases passes
    exact ⟨x, (List.mem_erase_of_ne other).mpr listed, passes⟩

/-- Some waiters of the feature have ended with its end instant. -/
structure WaitersEnded (c e p : Nat) (gone : Nat → Bool) (u v : State) : Prop where
  waiter : ∀ j, v.waiter j = if gone j then (u.waiter j).endedAs .expired e else u.waiter j
  pool : ∀ k, v.pool k =
    { u.pool k with queue := if k = p then (u.pool k).queue.filter (fun j => !gone j) else (u.pool k).queue }
  reached : v.reached = u.reached.filter (fun d => !(d.ofWaiter d.record && gone d.record))
  holdings : v.holdings = u.holdings
  allotments : v.allotments = u.allotments
  bare : v.bare = u.bare
  features : v.closedFeatures c = u.closedFeatures c
  dueHolding : ∀ i, v.dueHolding i = u.dueHolding i
  due : ∀ j, v.dueWaiter c j = (!gone j && u.dueWaiter c j)
  gone_due : ∀ j, gone j = true → u.dueWaiter c j = true

namespace WaitersEnded

variable {gone : Nat → Bool} (ended : WaitersEnded c e p gone u v)

include ended

theorem dueTokens (named : Holding → Bool) : v.dueTokens named = u.dueTokens named := by
  simp only [State.dueTokens, ended.holdings, ended.dueHolding]

theorem queue (j : Nat) : (!gone j && !v.dueWaiter c j) = !u.dueWaiter c j := by
  rw [ended.due]
  cases out : gone j with
  | true => rw [ended.gone_due j out]; rfl
  | false => rfl

theorem closedPool : v.closedPool c p = u.closedPool c p := by
  have reserves : v.reserveSum p = u.reserveSum p := by rw [State.reserveSum, ended.allotments, State.reserveSum]
  rw [State.closedPool, State.closedPool, ended.pool]
  simp only [ended.dueTokens, reserves, if_true, List.filter_filter]
  refine congrArg (fun l : List Nat => ({ u.closedPool c p with queue := l } : Pool)) (List.filter_congr fun j _ => ?_)
  rw [Bool.and_comm, ended.queue]

theorem closes (closes : Closes c e p v t) : Closes c e p u t := by
  obtain ⟨holding, waiter, others, home, allotments, reached, features, atOnce, bare⟩ := closes
  refine ⟨fun i => ?_, fun j => ?_, fun k other => ?_, ?_, ?_, ?_, ?_, atOnce, bare.trans ended.bare⟩
  · have same : v.holding i = u.holding i := by rw [State.holding, ended.holdings, State.holding]
    rw [holding, same, ended.dueHolding]
  · rw [waiter, ended.waiter, ended.due]
    cases out : gone j with
    | true => rw [ended.gone_due j out]; rfl
    | false => rfl
  · rw [others k other, ended.pool, if_neg other]
  · rw [home, ended.closedPool]
  · simp only [allotments, ended.allotments, ended.dueTokens]
  · rw [reached, ended.reached, filter_both]
    refine List.filter_congr fun d _ => ?_
    rw [State.dueRecord, State.dueRecord, ended.dueHolding, ended.due]
    cases d.ofWaiter d.record with
    | false => simp
    | true =>
      cases out : gone d.record with
      | true => simp [ended.gone_due _ out]
      | false => simp
  · rw [features, ended.features]

theorem ending (ending : Ending c e p u) (tables : TablesOk v)
    (known : ∃ g, v.feature c = some g ∧ g.state = .active ∧ g.pool = p ∧ g.endInstant = some e)
    (left : ∀ d ∈ v.atOnce, d ∈ u.atOnce ∧ (d.kind = .waitDeadline → gone d.record = false)) : Ending c e p v := by
  have bare := ended.bare
  have service : v.service = u.service := (congrArg State.service bare :)
  have starved : v.starved = u.starved := (congrArg State.starved bare :)
  have time : v.siteTime = u.siteTime := (congrArg State.siteTime bare :)
  have named (j : Nat) : (v.waiter j).feature = (u.waiter j).feature := by
    rw [ended.waiter]
    split <;> rfl
  have reserves : v.reserveSum p = u.reserveSum p := by rw [State.reserveSum, ended.allotments, State.reserveSum]
  have holding (i : Nat) : v.holding i = u.holding i := by rw [State.holding, ended.holdings, State.holding]
  have agrees := ending.agrees
  refine ⟨tables, ⟨known, time ▸ ending.atEnd.due, ?_⟩, ?_, fun d listed => ?_⟩
  · rw [service, starved]
    refine ending.atEnd.idle.imp_right fun ⟨unmarked, queued⟩ => ⟨unmarked, fun j listed => ?_⟩
    rw [ended.pool] at listed
    simp only [if_true] at listed
    rw [named]
    exact queued j (List.mem_filter.mp listed).1
  · rw [ended.pool, reserves]
    exact agrees
  · obtain ⟨before, waits⟩ := left d listed
    obtain ⟨second, shape⟩ := ending.pending d before
    refine ⟨second, ?_⟩
    rw [holding, ended.waiter]
    refine shape.imp_right (Or.imp_left fun ⟨kind, waiting⟩ => ⟨kind, ?_⟩)
    rw [waits kind]
    exact waiting

end WaitersEnded

theorem not_ofWaiter_of_ofFeature {d : Deadline} {j : Nat} (own : d.ofFeature c = true) : d.ofWaiter j = false := by
  simp only [Deadline.ofFeature, Bool.and_eq_true, beq_iff_eq] at own
  simp [Deadline.ofWaiter, own.2]

theorem not_ofWaiter_of_ofHolding {d : Deadline} {i j : Nat} (own : d.ofHolding i = true) : d.ofWaiter j = false := by
  obtain ⟨second, kind, record⟩ := d
  cases kind <;> simp_all [Deadline.ofHolding, Deadline.ofWaiter]

theorem endedAs_waitsFor (w : Waiter) (reason : WaiterEnd) (evt : Nat) : (w.endedAs reason evt).waitsFor c = false :=
  decide_eq_false fun ⟨waits, _⟩ => nomatch waits

/-- Its own deadline ends a waiter. -/
theorem handle_dueWaiter (atEnd : AtEnd c e p u) {j : Nat} (waits : (u.waiter j).waitsFor c = true) :
    u.handle ⟨e, .waitDeadline, j⟩ = u.endWaiter j .expired e := by
  obtain ⟨g, known, -, -, ending⟩ := atEnd.known
  obtain ⟨waiting, named⟩ := of_decide_eq_true waits
  have reason : (u.featureOf (u.waiter j).feature).waitReason e = .expired := by
    rw [named, featureOf_known known, Feature.waitReason, if_pos ending]
  rw [State.handle]
  simp only [State.handleWaitDeadline]
  rw [if_pos waiting, reason]

theorem waitersEnded_one (ending : Ending c e p u) {j : Nat} (waits : (u.waiter j).waitsFor c = true)
    (due : ⟨e, .waitDeadline, j⟩ ∈ u.atOnce) : WaitersEnded c e p (fun k => k == j) u (u.endWaiter j .expired e) := by
  obtain ⟨g, known, -, pooled, -⟩ := ending.atEnd.known
  have home : (u.featureOf (u.waiter j).feature).pool = p := by
    rw [(of_decide_eq_true waits).2, featureOf_known known, pooled]
  have written := endWaiter_written u j .expired e
  rw [home] at written
  obtain ⟨v, made⟩ : ∃ v, v = u.endWaiter j .expired e := ⟨_, rfl⟩
  rw [← made] at written ⊢
  have waiter (k : Nat) : v.waiter k = if k = j then (u.waiter j).endedAs .expired e else u.waiter k := by
    rw [written]
    exact tableGet_put ..
  have mine : u.dueWaiter c j = true := by
    rw [State.dueWaiter, List.any_eq_true.mpr ⟨_, due, by simp [Deadline.ofWaiter]⟩, Bool.true_or]
  have any (named : Deadline → Bool) (apart : ∀ d, named d = true → d.ofWaiter j = false) :
      v.atOnce.any named = u.atOnce.any named := by
    rw [written]
    refine (List.any_filter).trans (congrArg u.atOnce.any (funext fun d => ?_))
    cases own : named d with
    | false => rw [Bool.and_false]
    | true => rw [apart d own]; rfl
  have features : v.dueFeature c = u.dueFeature c := any _ fun d => not_ofWaiter_of_ofFeature
  refine ⟨fun k => ?_, fun k => ?_, ?_, ?_, ?_, ?_, ?_, fun i => ?_, fun k => ?_, fun k => ?_⟩
  · rw [waiter]
    simp only [beq_iff_eq]
    split
    · rename_i here
      rw [here]
    · rfl
  · rw [written]
    refine (tableGet_put ..).trans ?_
    split
    · rename_i here
      rw [here]
      rfl
    · rfl
  · rw [written]
    refine List.filter_congr fun d _ => ?_
    rw [ofWaiter_owns j, Bool.beq_comm]
  · rw [written]
  · rw [written]
  · rw [written]
    rfl
  · rw [State.closedFeatures, features, written]
    rfl
  · exact any _ fun d => not_ofWaiter_of_ofHolding
  · by_cases here : k = j
    · subst here
      have gone : v.atOnce.any (fun d => d.ofWaiter k) = false := by
        rw [written, List.any_filter]
        simp
      rw [State.dueWaiter, gone, waiter, if_pos rfl, endedAs_waitsFor]
      simp
    · have same : v.atOnce.any (fun d => d.ofWaiter k) = u.atOnce.any (fun d => d.ofWaiter k) := any _ fun d own => by
        simp only [Deadline.ofWaiter, Bool.and_eq_true, beq_iff_eq] at own
        simp [Deadline.ofWaiter, own.1, here]
      rw [State.dueWaiter, same, features, waiter, if_neg here]
      simp [State.dueWaiter, here]
  · intro gone
    rw [eq_of_beq gone]
    exact mine

theorem OfEnd.waits {d : Deadline} {j : Nat} (ofEnd : OfEnd c e p u d) (own : d.ofWaiter j = true) :
    (u.waiter j).waitsFor c = true := by
  simp only [Deadline.ofWaiter, Bool.and_eq_true, beq_iff_eq] at own
  obtain ⟨rfl, kind⟩ := own
  obtain ⟨-, ⟨holds, -⟩ | ⟨-, waits⟩ | ⟨other, -⟩⟩ := ofEnd
  · have none := not_ofWaiter_of_kind holds d.record
    simp [Deadline.ofWaiter, kind] at none
  · exact waits
  · exact nomatch kind.symm.trans other

/-- The end instant of the feature has left the set and has ended every waiter that still waits for the feature. -/
def State.instantEnded (u : State) (c e : Nat) (g : Feature) : State :=
  (State.setFeature { u with atOnce := u.atOnce.erase ⟨e, .featureEnd, c⟩ } c
    { g with endLodged := false }).endFeatureWaiters c .expired e

theorem handle_dueFeature {g : Feature} (known : u.feature c = some g) :
    State.handle { u with atOnce := u.atOnce.erase ⟨e, .featureEnd, c⟩ } ⟨e, .featureEnd, c⟩ = u.instantEnded c e g := by
  have found : State.feature { u with atOnce := u.atOnce.erase ⟨e, .featureEnd, c⟩ } c = some g := known
  rw [State.handle]
  simp only [State.handleFeatureEnd, found]
  rfl

theorem instantEnded_rest (rising : TableRising u.waiters) (c e : Nat) (g : Feature) :
    u.instantEnded c e g =
      { u with
        features := tableInsert u.features c { g with endLodged := false }
        waiters := (u.instantEnded c e g).waiters
        pools := (u.instantEnded c e g).pools
        reached := u.reached.filter (fun d => !u.waitsOf c d)
        atOnce := (u.atOnce.erase ⟨e, .featureEnd, c⟩).filter (fun d => !u.waitsOf c d) } :=
  endFeatureWaiters_rest (s := State.setFeature { u with atOnce := u.atOnce.erase ⟨e, .featureEnd, c⟩ } c
    { g with endLodged := false }) rising c .expired e

theorem instantEnded_feature (rising : TableRising u.waiters) (c e : Nat) (g : Feature) :
    (u.instantEnded c e g).feature c = some { g with endLodged := false } := by
  rw [instantEnded_rest rising]
  exact (tableFind_insert ..).trans (if_pos rfl)

theorem instantEnded_waiter (rising : TableRising u.waiters) (c e : Nat) (g : Feature) (j : Nat) :
    (u.instantEnded c e g).waiter j =
      if (u.waiter j).waitsFor c then (u.waiter j).endedAs .expired e else u.waiter j := by
  simp only [Waiter.waitsFor, decide_eq_true_iff]
  exact waiter_endFeatureWaiters (s := State.setFeature { u with atOnce := u.atOnce.erase ⟨e, .featureEnd, c⟩ } c
    { g with endLodged := false }) rising c .expired e j

theorem instantEnded_pool (rising : TableRising u.waiters) (c e : Nat) (g : Feature) (k : Nat) :
    (u.instantEnded c e g).pool k =
      { u.pool k with
        queue := if k = g.pool then (u.pool k).queue.filter (fun j => !(u.waiter j).waitsFor c)
          else (u.pool k).queue } := by
  obtain ⟨w, made⟩ : ∃ w, w = State.setFeature { u with atOnce := u.atOnce.erase ⟨e, .featureEnd, c⟩ } c
    { g with endLodged := false } := ⟨_, rfl⟩
  have home : (w.featureOf c).pool = g.pool := by
    rw [featureOf_known (f := { g with endLodged := false })]
    rw [made, feature_setFeature, if_pos rfl]
  have pools := endFeatureWaiters_pool (s := w) (made ▸ rising) c .expired e k
  rw [home, made] at pools
  exact pools

theorem waitersEnded_all (ending : Ending c e p u) {g : Feature} (known : u.feature c = some g) (pooled : g.pool = p)
    (due : ⟨e, .featureEnd, c⟩ ∈ u.atOnce) :
    WaitersEnded c e p (fun j => (u.waiter j).waitsFor c) u (u.instantEnded c e g) := by
  have rising := ending.tables.waiters_canonical.1
  have rest := instantEnded_rest rising c e g
  have waiter := instantEnded_waiter rising c e g
  have pool := instantEnded_pool rising c e g
  have feature := instantEnded_feature rising c e g
  rw [pooled] at pool
  obtain ⟨v, made⟩ : ∃ v, v = u.instantEnded c e g := ⟨_, rfl⟩
  simp only [← made] at rest waiter pool feature ⊢
  have lodged : u.dueFeature c = true := List.any_eq_true.mpr ⟨_, due, by simp [Deadline.ofFeature]⟩
  have gone (j : Nat) : u.dueWaiter c j = (u.waiter j).waitsFor c := by
    rw [State.dueWaiter, lodged, Bool.true_and, Bool.or_eq_right_iff_imp, List.any_eq_true]
    rintro ⟨d, pending, own⟩
    exact (ending.pending d pending).waits own
  have out (j : Nat) : v.dueWaiter c j = false := by
    have ended : (v.waiter j).waitsFor c = false := by
      rw [waiter]
      split
      · exact endedAs_waitsFor ..
      · rename_i stays
        exact Bool.eq_false_iff.mpr stays
    rw [State.dueWaiter, ended, Bool.and_false, Bool.or_false, List.any_eq_false]
    intro d listed own
    rw [rest] at listed
    obtain ⟨before, kept⟩ := List.mem_filter.mp listed
    have record : d.record = j := by
      simp only [Deadline.ofWaiter, Bool.and_eq_true, beq_iff_eq] at own
      exact own.1
    have waits := (ending.pending d (List.mem_of_mem_erase before)).waits own
    rw [State.waitsOf, record, own, waits] at kept
    cases kept
  have folds : v.closedFeatures c = tableInsert u.features c { g with endLodged := false } := by
    have table : v.features = tableInsert u.features c { g with endLodged := false } := by rw [rest]
    rw [State.closedFeatures, featureOf_known feature, table,
      tableInsert_twice ending.tables.features_rising, ite_self]
  refine ⟨waiter, pool, ?_, ?_, ?_, ?_, ?_, fun i => ?_, fun j => ?_, fun j waits => ?_⟩
  · rw [rest]
    rfl
  · rw [rest]
  · rw [rest]
  · rw [rest]
    rfl
  · rw [folds, State.closedFeatures, lodged, featureOf_known known]
    rfl
  · have other : Deadline.ofHolding i ⟨e, .featureEnd, c⟩ = false := by simp [Deadline.ofHolding]
    rw [State.dueHolding, rest, List.any_filter, State.dueHolding, ← any_erase_of other]
    refine congrArg (u.atOnce.erase _).any (funext fun d => ?_)
    cases own : d.ofHolding i with
    | false => rw [Bool.and_false]
    | true => rw [State.waitsOf, not_ofWaiter_of_ofHolding own]; rfl
  · rw [out, gone, Bool.not_and_self]
  · rw [gone]
    exact waits

/-! ### One deadline after another -/

theorem Ending.withChoices (ending : Ending c e p u) (n : Nat) : Ending c e p { u with choices := n } :=
  ⟨ending.tables.withDeadlines _ _ n, ⟨ending.atEnd.known, ending.atEnd.due, ending.atEnd.idle⟩, ending.agrees,
    ending.pending⟩

theorem Closes.of_choices {n : Nat} (closes : Closes c e p { u with choices := n } t) : Closes c e p u t :=
  ⟨closes.holding, closes.waiter, closes.others, closes.home, closes.allotments, closes.reached, closes.features,
    closes.atOnce, closes.bare⟩

/-- A deadline that is handled leaves the rest of them, and they come to what all of them come to. -/
theorem ending_handle (ending : Ending c e p u) {d : Deadline} (due : d ∈ u.atOnce) :
    Ending c e p (State.handle { u with atOnce := u.atOnce.erase d } d)
      ∧ (Closes c e p (State.handle { u with atOnce := u.atOnce.erase d } d) t → Closes c e p u t) := by
  obtain ⟨w, taken⟩ : ∃ w, w = ({ u with atOnce := u.atOnce.erase d } : State) := ⟨_, rfl⟩
  have atEnd : AtEnd c e p w := taken ▸ ⟨ending.atEnd.known, ending.atEnd.due, ending.atEnd.idle⟩
  have tables : TablesOk w := taken ▸ ending.tables.withDeadlines u.reached (u.atOnce.erase d) u.choices
  obtain ⟨second, kind, i⟩ := d
  obtain ⟨rfl, ⟨holds, named, pooled⟩ | ⟨rfl, waits⟩ | ⟨rfl, rfl⟩⟩ := ending.pending _ due
  · have own := ofHolding_of_kind holds
    have handled : w.handle ⟨second, kind, i⟩ = u.endedHolding second i := by
      rw [handle_dueHolding atEnd tables (taken ▸ holds) (taken ▸ named) (taken ▸ pooled), taken]
      simp only [State.endedHolding, filter_erase_named own]
      rfl
    rw [← taken, handled]
    exact ⟨ending.endedHolding i pooled,
      .of_endedHolding i ending (List.any_eq_true.mpr ⟨_, due, own⟩) pooled⟩
  · have own : Deadline.ofWaiter i ⟨second, .waitDeadline, i⟩ = true := by simp [Deadline.ofWaiter]
    have handled : w.handle ⟨second, .waitDeadline, i⟩ = u.endWaiter i .expired second := by
      rw [handle_dueWaiter atEnd (taken ▸ waits), taken, endWaiter_written, endWaiter_written]
      simp only [filter_erase_named own]
      rfl
    have ended := waitersEnded_one ending waits due
    rw [← taken, handled]
    refine ⟨ended.ending ending (ending.tables.dequeue ..) ?_ fun d listed => ?_, ended.closes⟩
    · obtain ⟨g, known, rest⟩ := ending.atEnd.known
      refine ⟨g, ?_, rest⟩
      rw [endWaiter_written]
      exact known
    · rw [endWaiter_written] at listed
      obtain ⟨before, kept⟩ := List.mem_filter.mp listed
      refine ⟨before, fun same => ?_⟩
      simpa [Deadline.ofWaiter, same] using kept
  · obtain ⟨g, known, active, pooled, instant⟩ := ending.atEnd.known
    have rising := ending.tables.waiters_canonical.1
    have ended := waitersEnded_all ending known pooled due
    rw [handle_dueFeature known]
    refine ⟨ended.ending ending ?_ ⟨_, instantEnded_feature rising .., active, pooled, instant⟩ fun d listed => ?_,
      ended.closes⟩
    · exact TablesOk.endFeatureWaiters ((ending.tables.withDeadlines ..).setFeature ..) ..
    · rw [instantEnded_rest rising] at listed
      obtain ⟨before, kept⟩ := List.mem_filter.mp listed
      refine ⟨List.mem_of_mem_erase before, fun same => ?_⟩
      have own : d.ofWaiter d.record = true := by simp [Deadline.ofWaiter, same]
      simpa [State.waitsOf, own] using kept

/-- Whatever order the free values choose, the deadlines of an end instant come to the same. -/
theorem settle_closes (ending : Ending c e p u) : Closes c e p u u.settle := by
  obtain ⟨n, bound⟩ : ∃ n, n = u.settleBound := ⟨_, rfl⟩
  induction n using Nat.strong_induction_on generalizing u with
  | _ n ih =>
    cases took : u.takeDue with
    | none =>
      have calm := takeDue_none took
      rw [settle_none calm]
      exact ending.closes calm
    | some pair =>
      obtain ⟨d, w⟩ := pair
      have less := (bound_handle ending.tables took).1
      rw [settle_take ending.tables took]
      obtain ⟨due, m, rfl⟩ := takeDue_some took
      obtain ⟨after, closes⟩ := ending_handle (ending.withChoices m) (d := d) due
      exact (closes (ih _ (bound ▸ less) after rfl)).of_choices

end Sys2Proof.Machine
end

section
/-! SUPPORT. Define Feature with another end day: where the end instant is at or before site time, the state in which its
deadlines are handled, and what that comes to in the words of the statement; and the proof of O44. -/

namespace Sys2Proof.Machine

open Sys2Proof.Claims

variable {s : State} {c e : Nat} {g : Feature}

/-- The tokens of the holdings that lie past the new end instant, of those that a test names (R17, R59). -/
def State.pastTokens (s : State) (c e : Nat) (named : Holding → Bool) : Nat :=
  ((s.holdings.filter (fun y => (s.holding y.1).isPast c e && named y.2)).map (fun y => y.2.tokens)).sum

theorem not_ofFeature_of_kind {state : HoldingState} {d : Deadline} (kind : state.deadlineKind = some d.kind) (c : Nat) :
    d.ofFeature c = false := by
  have other : (d.kind == .featureEnd) = false := by
    rw [beq_eq_false_iff_ne]
    intro same
    rw [same] at kind
    cases state <;> cases kind
  rw [Deadline.ofFeature, other, Bool.and_false]

section Due

variable (tables : TablesOk s) (calm : s.atOnce = []) (ending : g.endInstant = some e) (due : e ≤ s.siteTime)

include tables

theorem redefined_tables (ending : g.endInstant = some e) (c : Nat) : TablesOk (s.redefined c e g) := by
  have kept := tables.reclamped c g
  rw [State.reclamped, ending] at kept
  exact kept.placeFeature c g

include calm ending

/-- What the lowering and the new record bring to be handled at once. -/
theorem redefined_due {d : Deadline} (listed : d ∈ (s.redefined c e g).atOnce) :
    ((s.holding d.record).isPast c e = true ∧ (s.holding d.record).state.deadlineKind = some d.kind ∧ d.second = e)
      ∨ ((s.waiter d.record).isPast c e = true ∧ d = ⟨e, .waitDeadline, d.record⟩) ∨ d = ⟨e, .featureEnd, c⟩ := by
  rw [redefined_atOnce g tables calm ending] at listed
  rcases List.mem_append.mp listed with listed | listed
  · rcases List.mem_append.mp (List.mem_of_mem_filter listed) with listed | listed
    · obtain ⟨⟨i, h⟩, inTable, past, kind, record, second, -⟩ := holdingsDue_kind listed
      obtain rfl : s.holding i = h := tableGet_of_mem tables.holdings_canonical.1 inTable
      rw [record]
      exact .inl ⟨past, kind, second⟩
    · obtain ⟨⟨j, w⟩, inTable, past, rfl, -⟩ := waitersDue_kind listed
      obtain rfl : s.waiter j = w := tableGet_of_mem tables.waiters_canonical.1 inTable
      exact .inr (.inl ⟨past, rfl⟩)
  · obtain rfl := Option.mem_some.mp (Option.mem_toList.mp (List.mem_filter.mp listed).1)
    exact .inr (.inr rfl)

theorem ofEnd_redefined {p : Nat} (pooled : ∀ i, (s.holding i).state.counted = true → (s.holding i).feature = c →
    (s.holding i).pool = p) {d : Deadline} (listed : d ∈ (s.redefined c e g).atOnce) :
    OfEnd c e p (s.redefined c e g) d := by
  rcases redefined_due tables calm ending listed with ⟨past, kind, second⟩ | ⟨past, shape⟩ | rfl
  · obtain ⟨counted, named, -⟩ := holding_isPast.mp past
    refine ⟨second, .inl ?_⟩
    rw [redefined_holding g tables, lowered_holding, if_pos past]
    exact ⟨kind, named, pooled _ counted named⟩
  · obtain ⟨waits, named, -⟩ := waiter_isPast.mp past
    refine ⟨congrArg Deadline.second shape, .inr (.inl ⟨congrArg Deadline.kind shape, ?_⟩)⟩
    rw [redefined_waiter g tables, lowered_waiter, if_pos past]
    exact decide_eq_true ⟨waits, named⟩
  · exact ⟨rfl, .inr (.inr ⟨rfl, rfl⟩)⟩

include due

theorem dueFeature_redefined (c : Nat) : (s.redefined c e g).dueFeature c = true := by
  rw [State.dueFeature, redefined_atOnce g tables calm ending, dueNow_due due, List.any_append]
  simp [Deadline.ofFeature]

theorem dueHolding_redefined (c i : Nat) : (s.redefined c e g).dueHolding i = (s.holding i).isPast c e := by
  rw [Bool.eq_iff_iff, State.dueHolding, List.any_eq_true]
  constructor
  · rintro ⟨d, listed, own⟩
    rcases redefined_due tables calm ending listed with ⟨past, -⟩ | ⟨-, shape⟩ | rfl
    · simp only [Deadline.ofHolding, Bool.and_eq_true, beq_iff_eq] at own
      rw [← own.1]
      exact past
    · rw [shape] at own
      simp [Deadline.ofHolding] at own
    · simp [Deadline.ofHolding] at own
  · intro past
    have entry := any_entry tables.holdings_canonical.1 Holding.initial (test := Holding.isPast c e) rfl i
    obtain ⟨⟨k, h⟩, inTable, found⟩ := List.any_eq_true.mp (entry.trans past)
    obtain ⟨rfl, passes⟩ : k = i ∧ h.isPast c e = true := by simpa using found
    obtain ⟨kind, holds⟩ : ∃ kind, h.state.deadlineKind = some kind := by
      rw [← Option.ne_none_iff_exists', Ne, deadlineKind_none_iff, (holding_isPast.mp passes).1]
      nofun
    have lodged : holdingDeadline (k, { h with deadline := e }) = some ⟨e, kind, k⟩ := by
      rw [holdingDeadline, holds]
      rfl
    have mine : ⟨e, kind, k⟩ ∈ s.holdingsDue c e :=
      List.mem_flatMap.mpr ⟨(k, h), List.mem_filter.mpr ⟨inTable, passes⟩, by
        rw [lodged, dueNow_due due]
        exact List.mem_singleton_self _⟩
    refine ⟨⟨e, kind, k⟩, ?_, ofHolding_of_kind (d := ⟨e, kind, k⟩) holds⟩
    rw [redefined_atOnce g tables calm ending]
    refine List.mem_append_left _ (List.mem_filter.mpr ⟨List.mem_append_left _ mine, ?_⟩)
    rw [not_ofFeature_of_kind (d := ⟨e, kind, k⟩) holds]
    rfl

theorem dueWaiter_redefined (c j : Nat) : (s.redefined c e g).dueWaiter c j = (s.waiter j).waitsFor c := by
  have waits : ((s.redefined c e g).waiter j).waitsFor c = (s.waiter j).waitsFor c := by
    rw [redefined_waiter g tables, lowered_waiter]
    split <;> rfl
  rw [State.dueWaiter, dueFeature_redefined tables calm ending due, Bool.true_and, waits, Bool.or_eq_right_iff_imp,
    List.any_eq_true]
  rintro ⟨d, listed, own⟩
  rcases redefined_due tables calm ending listed with ⟨-, kind, -⟩ | ⟨past, -⟩ | rfl
  · rw [not_ofWaiter_of_kind kind] at own
    cases own
  · simp only [Deadline.ofWaiter, Bool.and_eq_true, beq_iff_eq] at own
    rw [← own.1]
    exact (Bool.and_eq_true_iff.mp past).1
  · simp [Deadline.ofWaiter] at own

theorem dueTokens_redefined (c : Nat) {named : Holding → Bool} (alike : ∀ h n, named { h with deadline := n } = named h) :
    (s.redefined c e g).dueTokens named = s.pastTokens c e named := by
  have rising := (redefined_tables tables ending c).holdings_canonical.1
  rw [State.dueTokens, State.pastTokens, sum_filter_map, sum_filter_map]
  refine sum_alike (d := Holding.initial) (t := (s.redefined c e g).holdings) (t' := s.holdings)
    (figure := fun k h => if (s.redefined c e g).dueHolding k && named h then h.tokens else 0)
    (figure' := fun k h => if (s.holding k).isPast c e && named h then h.tokens else 0)
    rising tables.holdings_canonical.1 (fun _ => ite_self 0) (fun _ => ite_self 0) fun k => ?_
  have entry := redefined_holding g tables c e k
  rw [State.holding] at entry
  rw [entry, dueHolding_redefined tables calm ending due, lowered_holding]
  split
  · rw [alike]
    rfl
  · rfl

/-- The state in which the deadlines of a new end instant are handled (R17). -/
theorem ending_redefined (active : g.state = .active) (below : g.pool < 64) (overs : OverOk s)
    (pooled : ∀ i, (s.holding i).state.counted = true → (s.holding i).feature = c → (s.holding i).pool = g.pool)
    (idle : s.service = .closed ∨ (s.starved = false ∧ ∀ j ∈ (s.pool g.pool).queue, (s.waiter j).feature = c)) :
    Ending c e g.pool (s.redefined c e g) := by
  have rest := redefined_rest g s c e
  have features : (s.redefined c e g).features = tableInsert s.features c g.lodged := (congrArg State.features rest :)
  have pools : (s.redefined c e g).pools = s.pools := (congrArg State.pools rest :)
  have allotments : (s.redefined c e g).allotments = s.allotments := (congrArg State.allotments rest :)
  have service : (s.redefined c e g).service = s.service := (congrArg State.service rest :)
  have starved : (s.redefined c e g).starved = s.starved := (congrArg State.starved rest :)
  have time : (s.redefined c e g).siteTime = s.siteTime := (congrArg State.siteTime rest :)
  have named (j : Nat) : ((s.redefined c e g).waiter j).feature = (s.waiter j).feature := by
    rw [redefined_waiter g tables, lowered_waiter]
    split <;> rfl
  refine ⟨redefined_tables tables ending c, ⟨⟨g.lodged, ?_, active, rfl, ending⟩, time ▸ due, ?_⟩, ?_,
    fun d listed => ofEnd_redefined tables calm ending pooled listed⟩
  · rw [State.feature, features, tableFind_insert, if_pos rfl]
  · simp only [service, starved, State.pool, pools, named]
    exact idle
  · rw [State.reserveSum, allotments, State.pool, pools, Bool.eq_iff_iff, decide_eq_true_iff]
    exact overs g.pool below

variable {p : Nat} {t : State} (closes : Closes c e p (s.redefined c e g) t)

include closes

theorem closes_holding (i : Nat) :
    t.holding i = if (s.holding i).isPast c e then (s.holding i).endedAt e else s.holding i := by
  rw [closes.holding, dueHolding_redefined tables calm ending due, redefined_holding g tables, lowered_holding]
  split <;> rfl

theorem closes_waiter (j : Nat) :
    t.waiter j = if (s.waiter j).waitsFor c then (s.waiter j).endedAs .expired e else s.waiter j := by
  rw [closes.waiter, dueWaiter_redefined tables calm ending due, redefined_waiter g tables, lowered_waiter]
  split
  · split <;> rfl
  · rename_i stays
    rw [Waiter.isPast, Bool.eq_false_iff.mpr stays, Bool.false_and, if_neg Bool.false_ne_true]

theorem closes_home :
    t.pool p =
      { s.pool p with
        used := (s.pool p).used - s.pastTokens c e (fun _ => true)
        borrowed := (s.pool p).borrowed - s.pastTokens c e (fun h => h.state == .borrowed)
        lingering := (s.pool p).lingering - s.pastTokens c e (fun h => h.state == .lingering)
        isOver := decide ((s.pool p).capacity < (s.pool p).used - s.pastTokens c e (fun _ => true)
          ∨ (s.pool p).capacity < s.reserveSum p)
        queue := (s.pool p).queue.filter (fun j => !(s.waiter j).waitsFor c) } := by
  have rest := redefined_rest g s c e
  have pools : (s.redefined c e g).pools = s.pools := (congrArg State.pools rest :)
  have allotments : (s.redefined c e g).allotments = s.allotments := (congrArg State.allotments rest :)
  have pool : (s.redefined c e g).pool p = s.pool p := by rw [State.pool, pools, State.pool]
  have reserves : (s.redefined c e g).reserveSum p = s.reserveSum p := by
    rw [State.reserveSum, allotments, State.reserveSum]
  have tokens {named : Holding → Bool} := dueTokens_redefined tables calm ending due c (named := named)
  rw [closes.home, State.closedPool, pool, reserves, tokens fun _ _ => rfl, tokens fun _ _ => rfl, tokens fun _ _ => rfl]
  simp only [dueWaiter_redefined tables calm ending due]

theorem closes_allotments :
    t.allotments = s.allotments.map (fun a =>
      if a.pool = p then { a with used := a.used - s.pastTokens c e (fun h => h.project == a.project) } else a) := by
  have rest := redefined_rest g s c e
  have allotments : (s.redefined c e g).allotments = s.allotments := (congrArg State.allotments rest :)
  rw [closes.allotments, allotments]
  refine List.map_congr_left fun a _ => ?_
  rw [dueTokens_redefined tables calm ending due c fun _ _ => rfl]

theorem closes_reached :
    t.reached = s.reached.filter (fun d =>
      !(d.ofFeature c || s.pastHolding c e d || (d.ofWaiter d.record && (s.waiter d.record).waitsFor c))) := by
  rw [closes.reached, redefined_reached g tables, filter_both]
  refine List.filter_congr fun d _ => ?_
  rw [State.dueRecord, dueHolding_redefined tables calm ending due, dueWaiter_redefined tables calm ending due,
    State.pastHolding, State.pastWaiter, Waiter.isPast]
  have absorbs : ∀ f h w waits past : Bool,
      (!(f || h || (w && (waits && past))) && !(h || (w && waits))) = !(f || h || (w && waits)) := by decide
  exact absorbs ..

theorem closes_rest (unlodged : g.endLodged = false) :
    { t with
      holdings := s.holdings, waiters := s.waiters, pools := s.pools, allotments := s.allotments, reached := s.reached
      choices := s.choices } =
      { s with features := tableInsert s.features c g } := by
  have rest := redefined_rest g s c e
  have table : (s.redefined c e g).features = tableInsert s.features c g.lodged := (congrArg State.features rest :)
  have known : (s.redefined c e g).feature c = some g.lodged := by
    rw [State.feature, table, tableFind_insert, if_pos rfl]
  have record : { g.lodged with endLodged := false } = g := by
    rw [← unlodged]
    rfl
  have features : t.features = tableInsert s.features c g := by
    rw [closes.features, State.closedFeatures, dueFeature_redefined tables calm ending due, if_pos rfl,
      featureOf_known known, record, table, tableInsert_twice tables.features_rising]
  have bare : t.bare = s.bare := closes.bare.trans (congrArg State.bare rest :)
  have frame := congrArg (fun u : State =>
    { u with
      features := t.features, holdings := s.holdings, waiters := s.waiters, pools := s.pools, allotments := s.allotments
      reached := s.reached, choices := s.choices, atOnce := t.atOnce }) bare
  rw [features, closes.atOnce.trans calm.symm] at frame
  have whole : t =
    { t with features := tableInsert s.features c g, atOnce := s.atOnce } := by
    rw [← features, calm, eq_of_calm closes.atOnce]
  rw [whole]
  exact frame

end Due

end Sys2Proof.Machine

namespace Sys2Proof.Claims

open Sys2Proof.Machine

/-- Settles O44: the deadlines lowered, and then none reached, or all of the end instant's handled one after another. -/
theorem newEndDayLowersTheDeadlinesPastIt : Obligations.NewEndDayLowersTheDeadlinesPastIt := by
  intro s rest tag x old taking admen calm tables fields c e r past waits known active pool sharing good other
  have answers := exec_defineFeature_replaces taking admen fields known active pool sharing good
  refine ⟨fun perpetual => ?_, fun ends ahead => ?_, fun ends due features overs idle => ?_⟩
  · rw [answers, replaceFeature_perpetual other (record_perpetual perpetual false),
      settle_placed_perpetual calm (record_perpetual perpetual false) rfl]
    rfl
  · have instant := record_endInstant ends false
    have quiet := redefined_calm (x.record false) tables calm instant ahead c
    have lodged : (x.record false).lodged = x.record true := by
      rw [Feature.lodged, instant]
      rfl
    rw [replaceFeature_ends other instant, settle_none quiet] at answers
    have frame := redefined_rest (x.record false) s c e
    rw [lodged] at frame
    refine ⟨_, answers, fun i => redefined_holding _ tables c e i, fun j => redefined_waiter _ tables c e j, ?_, ?_⟩
    · refine (redefined_reached _ tables c e).trans (List.filter_congr fun d _ => ?_)
      rw [State.pastWaiter, Waiter.isPast, ← Bool.and_assoc]
      rfl
    · have same := congrArg (fun l : List Deadline =>
        ({ s.redefined c e (x.record false) with
          holdings := s.holdings, waiters := s.waiters, reached := s.reached, atOnce := l } : State)) (quiet.trans calm.symm)
      exact congrArg (fun u : State => answered u rest r) (same.trans frame)
  · intro q tokens used
    have instant := record_endInstant ends false
    have below : (x.record false).pool < 64 :=
      Nat.not_le.mp fun high => fields 3 (.inr (.inl ⟨rfl, high⟩))
    have pooled (i : Nat) (counted : (s.holding i).state.counted = true) (named : (s.holding i).feature = c) :
        (s.holding i).pool = (x.record false).pool := by
      obtain ⟨f, found, home⟩ := features i counted
      rw [named, known] at found
      rw [home, ← Option.some.inj found]
      exact pool.symm
    have kept : (x.record false).pool = old.pool := pool
    have ending := ending_redefined tables calm instant due rfl below overs pooled (by rwa [kept])
    rw [kept] at ending
    have closes := settle_closes ending
    rw [replaceFeature_ends other instant] at answers
    obtain ⟨t, settled⟩ : ∃ t, t = (s.redefined c e (x.record false)).settle := ⟨_, rfl⟩
    rw [← settled] at answers closes
    have frame := redefined_rest (x.record false) s c e
    have pools : (s.redefined c e (x.record false)).pools = s.pools := (congrArg State.pools frame :)
    have home := closes_home tables calm instant due closes
    have allotments := closes_allotments tables calm instant due closes
    have reached := closes_reached tables calm instant due closes
    refine ⟨_, answers, fun i => (closes_holding tables calm instant due closes i).trans ?_,
      fun j => closes_waiter tables calm instant due closes j, fun k apart => ?_, home, allotments, reached, ?_⟩
    · have test : past i = (s.holding i).isPast c e := rfl
      rw [test]
      cases (s.holding i).isPast c e <;> rfl
    · refine (closes.others k apart).trans ?_
      rw [State.pool, pools, State.pool]
    · exact congrArg (fun u : State => answered u rest r) (closes_rest tables calm instant due closes rfl)

end Sys2Proof.Claims
end
